-- ==== Sys2Proof/Word.lean ====
section
/-! DEFINITION. The data types of the CORE (R5): 32-bit words, bytes, and register files of a fixed number of each. -/

namespace Sys2Proof

/-- A word: a 32-bit unsigned integer (R5). -/
abbrev Word := BitVec 32

/-- A byte: an 8-bit unsigned integer (R5). -/
abbrev Byte := BitVec 8

/-- A file of `n` word registers. -/
abbrev Words (n : Nat) := Vector Word n

/-- A file of `n` byte registers. -/
abbrev Bytes (n : Nat) := Vector Byte n

/-- An index into the working array `W`: four bits, every value names a register (R11, R47). -/
abbrev WIndex := Fin 16

end Sys2Proof
end

