-- ==== Sys2Proof/Syntax.lean ====
section
/-! DEFINITION. The commands of the CORE: one constructor per row of spec/opcode_table.json (R46). -/

namespace Sys2Proof

/-- A command (R46). All but QROUND take their operands from registers (R48). -/
inductive Instr where
  /-- CONSTRUCT, op 0x01 (R62). -/
  | construct
  /-- INITSTATE, op 0x02 (R63). -/
  | initstate
  /-- BLOCK, op 0x03 (R74). -/
  | block
  /-- SERIALIZE, op 0x04 (R81). -/
  | serialize
  /-- COMBINE, op 0x05 (R84). -/
  | combine
  /-- CIPHER, op 0x06 (R89). -/
  | cipher
  /-- COPY, op 0x10 (R71). -/
  | copy
  /-- QROUND a, b, c, d, op 0x11 (R72): indices of the quarter-round's four words. -/
  | qround (a b c d : WIndex)
  /-- ADDSTATE, op 0x12 (R73). -/
  | addstate
deriving DecidableEq, Repr

end Sys2Proof
end

