-- ==== Sys2Proof/WellFormed.lean ====
section
/-! DEFINITION. Which command terms are commands of the hardware: a QROUND's four indices are pairwise distinct (R47). -/

namespace Sys2Proof

/-- The four indices of a QROUND are pairwise distinct (R47). -/
abbrev PairwiseDistinct (a b c d : WIndex) : Prop :=
  a ≠ b ∧ a ≠ c ∧ a ≠ d ∧ b ≠ c ∧ b ≠ d ∧ c ≠ d

/-- A well-formed command (R47, R49). -/
abbrev Instr.WellFormed : Instr → Prop
  | .qround a b c d => PairwiseDistinct a b c d
  | .construct => True
  | .initstate => True
  | .block => True
  | .serialize => True
  | .combine => True
  | .cipher => True
  | .copy => True
  | .addstate => True

end Sys2Proof
end

