-- ==== Sys2Proof/Decode.lean ====
section
/-! DEFINITION. Decoding a command word (R45, R47, R49, R50), total on all 2^32 words, and the encoder from the same tables. -/

namespace Sys2Proof

/-- Why a command word is illegal (R49). -/
inductive Illegal where
  /-- Bits 7:0 are none of the nine codes. -/
  | unassignedOp
  /-- A must-be-zero bit is 1: 31:8 of format N, 31:24 of format Q. -/
  | nonzeroBits
  /-- A QROUND with two equal indices. -/
  | repeatedIndex
deriving DecidableEq, Repr

/-- The format N command of an operation code, and none for a code that is unassigned or of format Q (R46). -/
def formatN (op : BitVec 8) : Option Instr :=
  if op = 0x01 then some .construct
  else if op = 0x02 then some .initstate
  else if op = 0x03 then some .block
  else if op = 0x04 then some .serialize
  else if op = 0x05 then some .combine
  else if op = 0x06 then some .cipher
  else if op = 0x10 then some .copy
  else if op = 0x12 then some .addstate
  else none

/-- Format Q (R45, R47): index fields at 11:8, 15:12, 19:16, 23:20, bits 31:24 zero, indices pairwise distinct. -/
def decodeQ (cw : Word) : Except Illegal Instr :=
  if cw.extractLsb' 24 8 ≠ 0 then .error .nonzeroBits
  else
    let a : WIndex := (cw.extractLsb' 8 4).toFin
    let b : WIndex := (cw.extractLsb' 12 4).toFin
    let c : WIndex := (cw.extractLsb' 16 4).toFin
    let d : WIndex := (cw.extractLsb' 20 4).toFin
    if PairwiseDistinct a b c d then .ok (.qround a b c d) else .error .repeatedIndex

/-- The decoder: the format is chosen by bits 7:0 alone, then the rest is checked (R45, R49, R50). -/
def decode (cw : Word) : Except Illegal Instr :=
  if cw.extractLsb' 0 8 = 0x11 then decodeQ cw
  else
    match formatN (cw.extractLsb' 0 8) with
    | none => .error .unassignedOp
    | some i => if cw.extractLsb' 8 24 = 0 then .ok i else .error .nonzeroBits

/-- The operation code of a command (R46). -/
def Instr.op : Instr → BitVec 8
  | .construct => 0x01
  | .initstate => 0x02
  | .block => 0x03
  | .serialize => 0x04
  | .combine => 0x05
  | .cipher => 0x06
  | .copy => 0x10
  | .qround _ _ _ _ => 0x11
  | .addstate => 0x12

/-- The command word of a command (R45): format N is the code alone, format Q is
`0x11 + a*2^8 + b*2^12 + c*2^16 + d*2^20` (R72). -/
def encode (i : Instr) : Word :=
  match i with
  | .qround a b c d => BitVec.ofNat 32 (0x11 + a.val * 2 ^ 8 + b.val * 2 ^ 12 + c.val * 2 ^ 16 + d.val * 2 ^ 20)
  | .construct => i.op.setWidth 32
  | .initstate => i.op.setWidth 32
  | .block => i.op.setWidth 32
  | .serialize => i.op.setWidth 32
  | .combine => i.op.setWidth 32
  | .cipher => i.op.setWidth 32
  | .copy => i.op.setWidth 32
  | .addstate => i.op.setWidth 32

/-- The `mask` of a command's row (R50). -/
def Instr.mask : Instr → Word
  | .qround _ _ _ _ => 0xFF0000FF
  | .construct => 0xFFFFFFFF
  | .initstate => 0xFFFFFFFF
  | .block => 0xFFFFFFFF
  | .serialize => 0xFFFFFFFF
  | .combine => 0xFFFFFFFF
  | .cipher => 0xFFFFFFFF
  | .copy => 0xFFFFFFFF
  | .addstate => 0xFFFFFFFF

/-- The `match` value of a command's row: its operation code (R50). -/
def Instr.pattern (i : Instr) : Word := i.op.setWidth 32

/-- The instruction the decoder reads from a table word of `nbits` bits with value `w`, bits above `nbits` zero.
A command is one 32-bit word (R45), so a value that needs more bits is no command word. -/
def decodeTableWord (nbits w : Nat) : Option Instr :=
  if w % 2 ^ nbits < 2 ^ 32 then (decode (BitVec.ofNat 32 (w % 2 ^ nbits))).toOption else none

end Sys2Proof
end

