-- ==== Sys2Proof/Config.lean ====
section
/-! DEFINITION. The platform's parameter and the free values. Each is a constant without a body: no proof can see its value. -/

namespace Sys2Proof

/-- Base bus address of the register window, a platform parameter (R4, R22, U13). UNVERIFIED value, safe: free (log 10). -/
opaque Config.coreBase : Nat

/-- VALID (bit 0) and RESULT (bits 4:1) as a read of STATUS shows them while BUSY = 1, where R125 gives them no meaning;
one value per draw. Free value, safe (log 7). -/
opaque Config.busyStatus : Nat → BitVec 5

/-- Whether the OUT byte at an offset keeps its old value when a reset abandons a CIPHER or COMBINE (R124, U4);
first argument the draw, second the offset. Free value, safe (log 6). -/
opaque Config.keepsOldByte : Nat → Nat → Bool

end Sys2Proof
end

