-- ==== Sys2Proof/Machine/State.lean ====
section
/-! DEFINITION. The state of the CORE (R10), the host's interactions (R133), the errors (R100), and the state after reset (R26). -/

namespace Sys2Proof.Machine

/-- A message space: (offset, byte) pairs in the canonical form of `Memory.wf` (R30). -/
abbrev Memory := List Host.Cell

/-- The typed errors (R100). Each ends a command; none stops the machine. -/
inductive CmdError where
  /-- Code 1, CONSTRUCT with `KEY_LEN != 32` (R101). -/
  | invalidKeyLength
  /-- Code 2, CONSTRUCT with `NONCE_LEN != 12` (R102). -/
  | invalidNonceLength
  /-- Code 3, COMBINE with `LEN > 64` (R103). -/
  | lengthMismatch
  /-- Code 4, reserved, never raised by this hardware (R117). -/
  | taskFailure
  /-- Code 5, CIPHER whose last block needs a counter above `0xFFFFFFFF` (R104). -/
  | counterOverflow
  /-- Code 6, INITSTATE or CIPHER with `VALID = 0` (R105). -/
  | noContext
  /-- Code 7, an illegal command word (R106). -/
  | illegalCommand
deriving DecidableEq, Repr

/-- The registers of the register window (R22), word by word. -/
inductive WindowReg where
  | cmd
  | status
  | faultLog
  | keyLen
  | nonceLen
  | ctrArg
  | lenLo
  | lenHi
  | keyBuf (j : Fin 8)
  | nonceBuf (j : Fin 3)
  | k (j : Fin 8)
  | n (j : Fin 3)
  | ctr0
  | s (i : Fin 16)
  | w (i : Fin 16)
  | b (i : Fin 16)
  | ks (j : Fin 16)
deriving DecidableEq, Repr

/-- The width of a register-window access; only `word` is specified (R35). -/
inductive AccessSize where
  | byte
  | half
  | word
  | double
deriving DecidableEq, Repr

/-- One interaction of the host, or of its platform, with the CORE (R133). -/
inductive Input where
  /-- Write `v` to the register window at a byte offset from CORE_BASE; at offset 0 this is the CMD write (R15). -/
  | write (off : Nat) (size : AccessSize) (v : Word)
  /-- Read the register window at a byte offset from CORE_BASE. -/
  | read (off : Nat) (size : AccessSize)
  /-- Place a byte of the text (R30). -/
  | writeIn (addr : BitVec 64) (v : Byte)
  /-- Write a byte of the memory that holds the CipherBuffer, which the host owns (R25; log 11). -/
  | writeOut (addr : BitVec 64) (v : Byte)
  /-- Read a byte of the CipherBuffer (R30). -/
  | readOut (addr : BitVec 64)
  /-- Wait until `BUSY = 0`: a command being executed runs to its end here (R7, R130). -/
  | wait
  /-- The platform's reset (R120, R124). -/
  | reset
deriving DecidableEq, Repr

/-- What the host gets back from an interaction that reads (R133). -/
inductive Reply where
  /-- The word of a register-window read. -/
  | word (v : Word)
  /-- The byte of an OUT read. -/
  | byte (v : Byte)
deriving DecidableEq, Repr

/-- Faults that stop the machine: none. Every command ends, an error is a typed result in STATUS and FAULTLOG (R107, R130),
and 93_implementation_defined.md says that no case is stuck. Nobody raises a fault; that is exact, neither safe nor unsafe. -/
inductive Fault where
deriving DecidableEq, Repr

/-- Why a step has no meaning. All but the first refuse a host interaction that the spec calls outside the specified
behaviour and tells the model to refuse; a refusal is safe. -/
inductive Refusal where
  /-- An instruction without a meaning: no arm of `exec` raises it in this model; safe. -/
  | notModelled (mnemonic : String)
  /-- Raised by a window access other than an aligned 32-bit word (R35, U3); safe. -/
  | notAlignedWord (off : Nat)
  /-- Raised by a window access at a reserved offset or beyond 0x1FF (R22, U3); safe. -/
  | reservedOffset (off : Nat)
  /-- Raised by a read of the write-only CMD (R15, R22, U3); safe. -/
  | readOfWriteOnly
  /-- Raised by a write of a read-only register (R18, R22, U3); safe. -/
  | writeOfReadOnly (r : WindowReg)
  /-- Raised by a window access other than a STATUS read while `BUSY = 1` (R125, U2); safe. -/
  | registerWhileBusy (r : WindowReg)
  /-- Raised by a host access to a byte of IN or OUT while `BUSY = 1` (R39, R126, R133, D16, U12); safe. -/
  | messageWhileBusy (addr : BitVec 64)
deriving DecidableEq, Repr

/-- The complete state (R10), and three fields of the model's own: the host's interactions to come, what the host got back
last, and the count of free values drawn. STATUS is the view `State.status` of `cmd`, `valid` and `result`. -/
@[ext]
structure State where
  /-- `W[0..15]`, the working array (R11). -/
  w : Words 16
  /-- `S[0..15]`, the State (R19). -/
  s : Words 16
  /-- `B[0..15]`, the Block (R20). -/
  b : Words 16
  /-- `KS[0..63]`, the Keystream (R21). -/
  ks : Bytes 64
  /-- `K[0..7]`, key words of the context (R18). -/
  k : Words 8
  /-- `N[0..2]`, nonce words of the context (R18). -/
  n : Words 3
  /-- `CTR0`, base block counter of the context (R18). -/
  ctr0 : Word
  /-- `VALID` (R13, R18). -/
  valid : Bool
  /-- `KEYBUF[0..31]` (R17). -/
  keyBuf : Bytes 32
  /-- `NONCEBUF[0..11]` (R17). -/
  nonceBuf : Bytes 12
  /-- `KEY_LEN` (R16). -/
  keyLen : Word
  /-- `NONCE_LEN` (R16). -/
  nonceLen : Word
  /-- `CTR_ARG` (R16). -/
  ctrArg : Word
  /-- `LEN_LO` (R16). -/
  lenLo : Word
  /-- `LEN_HI` (R16). -/
  lenHi : Word
  /-- The word of the command being executed; `BUSY = 1` exactly when there is one (R13, R15). -/
  cmd : Option Word
  /-- `RESULT` (R13). -/
  result : BitVec 4
  /-- `FAULTLOG` (R14). -/
  faultLog : Word
  /-- `BLK`, index of the 64-byte block in progress (R12). -/
  blk : Word
  /-- `RND`, double rounds completed (R12). -/
  rnd : BitVec 4
  /-- `IN`, the text (R30). -/
  inMem : Memory
  /-- `OUT`, the CipherBuffer (R30). -/
  outMem : Memory
  /-- The host's interactions still to come, the next one first (R133, R134). -/
  inputs : List Input
  /-- What the host got back from its last interaction (R133). -/
  reply : Option Reply
  /-- How many free values have been drawn. -/
  draws : Nat
deriving DecidableEq, Repr

/-- What one step or one command answers. -/
abbrev Answer := Host.Outcome State Fault Refusal

/-- The state after reset (R26): every register 0, idle, no context; no interaction pending; in IN and OUT nothing is listed. -/
def State.reset : State where
  w := Vector.replicate 16 0
  s := Vector.replicate 16 0
  b := Vector.replicate 16 0
  ks := Vector.replicate 64 0
  k := Vector.replicate 8 0
  n := Vector.replicate 3 0
  ctr0 := 0
  valid := false
  keyBuf := Vector.replicate 32 0
  nonceBuf := Vector.replicate 12 0
  keyLen := 0
  nonceLen := 0
  ctrArg := 0
  lenLo := 0
  lenHi := 0
  cmd := none
  result := 0
  faultLog := 0
  blk := 0
  rnd := 0
  inMem := []
  outMem := []
  inputs := []
  reply := none
  draws := 0

end Sys2Proof.Machine
end

