-- ==== Sys2Proof/Machine/Flags.lean ====
section
/-! DEFINITION. The flags: STATUS and FAULTLOG (R13, R14) and the error codes they hold (R100). -/

namespace Sys2Proof.Machine

/-- The RESULT code of an error, which is also its FAULTLOG bit number (R100). -/
def CmdError.code : CmdError → BitVec 4
  | .invalidKeyLength => 1
  | .invalidNonceLength => 2
  | .lengthMismatch => 3
  | .taskFailure => 4
  | .counterOverflow => 5
  | .noContext => 6
  | .illegalCommand => 7

/-- FAULTLOG with only the bit of one error set (R14). -/
def CmdError.bit (e : CmdError) : Word := 1#32 <<< e.code.toNat

/-- `BUSY`: a command is being executed (R13). -/
def State.busy (s : State) : Bool := s.cmd.isSome

/-- The layout of STATUS (R13): BUSY in bit 0, VALID in bit 1, RESULT in bits 7:4, every other bit 0. -/
def statusWord (busy valid : Bool) (result : BitVec 4) : Word :=
  (BitVec.ofBool busy).setWidth 32 ||| ((BitVec.ofBool valid).setWidth 32 <<< 1) ||| (result.setWidth 32 <<< 4)

/-- STATUS as the CORE holds it (R13). -/
def State.status (s : State) : Word := statusWord s.busy s.valid s.result

/-- STATUS as a host read shows it: while `BUSY = 1` only BUSY has a meaning (R125), and VALID and RESULT are free values. -/
def State.statusRead (s : State) : Word :=
  if s.busy then
    statusWord true ((Config.busyStatus s.draws).getLsbD 0) ((Config.busyStatus s.draws).extractLsb' 1 4)
  else s.status

end Sys2Proof.Machine
end

