-- ==== Sys2Proof/Machine/Operands.lean ====
section
/-! DEFINITION. Operand assembly (R47, R48): bytes to words and back, the text length, the key and nonce words. -/

namespace Sys2Proof.Machine

/-- `PACK_LE` (R60), in the source's form: byte[0] | byte[1]<<8 | byte[2]<<16 | byte[3]<<24. -/
def packLE (b0 b1 b2 b3 : Byte) : Word :=
  b0.setWidth 32 ||| (b1.setWidth 32 <<< 8) ||| (b2.setWidth 32 <<< 16) ||| (b3.setWidth 32 <<< 24)

/-- `BYTE_LE(w, k) = w[8k+7 : 8k]` (R80). -/
def byteLE (w : Word) (k : Nat) : Byte := w.extractLsb' (8 * k) 8

/-- Word `j` of a byte sequence (R60). -/
def wordOf {m : Nat} (x : Bytes m) (j : Nat) (h : 4 * j + 3 < m) : Word :=
  packLE x[4 * j] x[4 * j + 1] x[4 * j + 2] x[4 * j + 3]

/-- A byte file with its word `j` replaced, lane by lane, least-significant byte first (R34). -/
def putWord {m : Nat} (x : Bytes m) (j : Nat) (v : Word) : Bytes m :=
  Vector.ofFn fun i => if i.val / 4 = j then byteLE v (i.val % 4) else x[i]

/-- The eight key words of 32 key bytes (R60, R62 step 3). -/
def keyWords (x : Bytes 32) : Words 8 := Vector.ofFn fun j => wordOf x j.val (by omega)

/-- The three nonce words of 12 nonce bytes (R60, R62 step 4). -/
def nonceWords (x : Bytes 12) : Words 3 := Vector.ofFn fun j => wordOf x j.val (by omega)

/-- `LEN = LEN_HI * 2^32 + LEN_LO`, a byte count (R48). -/
def State.len (s : State) : Nat := s.lenHi.toNat * 2 ^ 32 + s.lenLo.toNat

/-- `ceil64(L)`: the number of 64-byte blocks that cover `L` bytes, over the naturals (R6, R86). -/
def ceil64 (len : Nat) : Nat := (len + 63) / 64

/-- `len_i`: how many bytes of a text of `len` bytes block `i` holds (R86). -/
def chunkLen (len i : Nat) : Nat := min 64 (len - 64 * i)

end Sys2Proof.Machine
end

