-- ==== Sys2Proof/Machine/Ops.lean ====
section
/-! DEFINITION. The shared operations: message memory (R31, R32), the end of a command, `raise` (R107), and reset (R120). -/

namespace Sys2Proof.Machine

/-- What an unlisted byte of a message space reads as. DESIGN CHOICE, unsafe (log 1). -/
def Memory.unlisted : Byte := 0

/-- The byte at an offset (R31). -/
def Memory.read : Memory → Nat → Byte
  | [], _ => Memory.unlisted
  | (b, v) :: rest, a => if a = b then v else Memory.read rest a

/-- Set the byte at an offset (R32), keeping the canonical form. -/
def Memory.write : Memory → Nat → Byte → Memory
  | [], a, v => if v = Memory.unlisted then [] else [(a, v)]
  | (b, u) :: rest, a, v =>
    if a < b then (if v = Memory.unlisted then (b, u) :: rest else (a, v) :: (b, u) :: rest)
    else if a = b then (if v = Memory.unlisted then rest else (a, v) :: rest)
    else (b, u) :: Memory.write rest a v

/-- The canonical form: offsets strictly rising, and no byte equal to what an unlisted offset reads as. -/
def Memory.wf : Memory → Bool
  | [] => true
  | [(_, v)] => v != Memory.unlisted
  | (a, v) :: (b, u) :: rest => v != Memory.unlisted && decide (a < b) && Memory.wf ((b, u) :: rest)

/-- Every listed offset is below 2^64, the width of LEN (R30). -/
def Memory.inRange (m : Memory) : Bool := m.all fun c => decide (c.1 < 2 ^ 64)

/-- At each listed offset of `as` below `len` that `keeps` does not hold, take `new`'s byte (R124). -/
def Memory.mixAt (keeps : Nat → Bool) (len : Nat) (new : Memory) : List Nat → Memory → Memory
  | [], m => m
  | a :: as, m =>
    Memory.mixAt keeps len new as (if decide (a < len) && !keeps a then m.write a (new.read a) else m)

/-- Below `len` each byte is `old`'s where `keeps` says so and `new`'s elsewhere; from `len` on it is `old`'s (R124, U4). -/
def Memory.mix (keeps : Nat → Bool) (len : Nat) (old new : Memory) : Memory :=
  Memory.mixAt keeps len new (old.map Prod.fst ++ new.map Prod.fst) old

/-- Write all of `W`. -/
def State.setW (s : State) (v : Words 16) : State := { s with w := v }

/-- Write all of `S`. -/
def State.setS (s : State) (v : Words 16) : State := { s with s := v }

/-- Write all of `B`. -/
def State.setB (s : State) (v : Words 16) : State := { s with b := v }

/-- Write all of `KS`. -/
def State.setKs (s : State) (v : Bytes 64) : State := { s with ks := v }

/-- Write the context and make it valid (R18, R62 steps 3 to 6). -/
def State.setContext (s : State) (k : Words 8) (n : Words 3) (ctr : Word) : State :=
  { s with k := k, n := n, ctr0 := ctr, valid := true }

/-- `VALID <- 0` (R62 steps 1 and 2); the bits of the context stay (R111). -/
def State.invalidate (s : State) : State := { s with valid := false }

/-- Write IN. -/
def State.setIn (s : State) (m : Memory) : State := { s with inMem := m }

/-- Write OUT. -/
def State.setOut (s : State) (m : Memory) : State := { s with outMem := m }

/-- Write BLK (R12). -/
def State.setBlk (s : State) (v : Word) : State := { s with blk := v }

/-- Write RND (R12). -/
def State.setRnd (s : State) (v : BitVec 4) : State := { s with rnd := v }

/-- The end of a command (R13, R12): RESULT written, BLK and RND 0, BUSY 0. Success writes code 0. -/
def State.finish (s : State) (code : BitVec 4) : State :=
  { s with result := code, blk := 0, rnd := 0, cmd := none }

/-- Set the FAULTLOG bit of an error (R14, R107 step 2). -/
def State.logError (s : State) (e : CmdError) : State := { s with faultLog := s.faultLog ||| e.bit }

/-- `raise` (R107), the one way a command ends in an error: RESULT takes the code, the code's FAULTLOG bit is set, BLK, RND
and BUSY become 0, and nothing else is written. There is no handler, no saved register and no return instruction (R111). -/
def State.raise (s : State) (e : CmdError) : State := (s.logError e).finish e.code

/-- A host read's result (R133), and `n` free values drawn for it. -/
def State.answer (s : State) (r : Reply) (n : Nat) : State := { s with reply := some r, draws := s.draws + n }

/-- The host's next interaction taken from the list; what it got back before is gone. -/
def State.takeInput (s : State) (rest : List Input) : State := { s with inputs := rest, reply := none }

/-- One free value drawn. -/
def State.drawOne (s : State) : State := { s with draws := s.draws + 1 }

/-- The platform's reset (R120): every register takes its reset value; IN and OUT are not touched (R26). The host's pending
interactions and the count of drawn values are not the CORE's and stay. -/
def State.resetCore (s : State) : State :=
  { State.reset with inMem := s.inMem, outMem := s.outMem, inputs := s.inputs, draws := s.draws }

end Sys2Proof.Machine
end

