-- ==== Sys2Proof/Machine/BlockTransform.lean ====
section
/-! DEFINITION. The Block Transform: its arithmetic (R65, R66), round schedule (R67 to R70), BLOCK, COPY, QROUND, ADDSTATE. -/

namespace Sys2Proof.Machine

/-- `ROTL32(x, n)`: 32-bit circular left shift (R65). Only 16, 12, 8 and 7 are used (U16, log 9). -/
def rotl32 (x : Word) (n : Nat) : Word := x.rotateLeft n

/-- The four words a quarter-round returns (R66). -/
structure Quad where
  a : Word
  b : Word
  c : Word
  d : Word
deriving DecidableEq, Repr

/-- One of the quarter-round's four lines (R66): `x <- x + y ; z <- rotl(z xor x, n)`, returning the new `x` and `z`. -/
def addXorRot (x y z : Word) (n : Nat) : Word × Word :=
  (x + y, rotl32 (z ^^^ (x + y)) n)

/-- `QR(a, b, c, d)` (R66): the twelve assignments in the order written, each seeing the earlier ones. -/
def quarterRound (q : Quad) : Quad :=
  let ad := addXorRot q.a q.b q.d 16
  let cb := addXorRot q.c ad.2 q.b 12
  let ad' := addXorRot ad.1 cb.2 ad.2 8
  let cb' := addXorRot cb.1 ad'.2 cb.2 7
  { a := ad'.1, b := cb'.2, c := cb'.1, d := ad'.2 }

/-- The quarter-round on four registers of a 16-word array (R72 step 2). -/
def quarterRoundAt (w : Words 16) (a b c d : WIndex) : Words 16 :=
  let q := quarterRound { a := w[a], b := w[b], c := w[c], d := w[d] }
  (((w.set a q.a).set b q.b).set c q.c).set d q.d

/-- `ColumnRound` (R67). -/
def columnRound (w : Words 16) : Words 16 :=
  let w := quarterRoundAt w 0 4 8 12
  let w := quarterRoundAt w 1 5 9 13
  let w := quarterRoundAt w 2 6 10 14
  quarterRoundAt w 3 7 11 15

/-- `DiagonalRound` (R68). -/
def diagonalRound (w : Words 16) : Words 16 :=
  let w := quarterRoundAt w 0 5 10 15
  let w := quarterRoundAt w 1 6 11 12
  let w := quarterRoundAt w 2 7 8 13
  quarterRoundAt w 3 4 9 14

/-- Word-wise addition modulo 2^32, no carry between words (R70, R73). -/
def addWords (x y : Words 16) : Words 16 := Vector.ofFn fun i => x[i] + y[i]

/-- One double round: a column round, then a diagonal round (R69). -/
def doubleRoundOf (w : Words 16) : Words 16 := diagonalRound (columnRound w)

/-- `n` double rounds. -/
def doubleRoundsOf : Nat → Words 16 → Words 16
  | 0, w => w
  | n + 1, w => doubleRoundOf (doubleRoundsOf n w)

/-- The number of double rounds (R69, 90_conflicts.md C1). -/
def nDoubleRounds : Nat := 10

/-- The post-round working array of a State: `Rounds20` on a copy (R69, R70). -/
def workingOf (s : Words 16) : Words 16 := doubleRoundsOf nDoubleRounds s

/-- `BlockTransform(s)` (R70): the working array plus the original State. -/
def blockOf (s : Words 16) : Words 16 := addWords (workingOf s) s

/-- `W <- S` (R71). -/
def State.loadWorking (s : State) : State := s.setW s.s

/-- `B <- W + S` (R73). -/
def State.addOriginal (s : State) : State := s.setB (addWords s.w s.s)

/-- One double round on W, column round first (R69); RND counts it (R12). -/
def State.doubleRound (s : State) : State := (s.setW (doubleRoundOf s.w)).setRnd (s.rnd + 1)

/-- `n` double rounds on W. -/
def State.doubleRounds : Nat → State → State
  | 0, s => s
  | n + 1, s => (State.doubleRounds n s).doubleRound

/-- The whole transform on the registers (R70, R74 steps 1 to 3): RND runs from 0 to 10 and is 0 again at the end (R12). -/
def State.transform (s : State) : State :=
  (State.doubleRounds nDoubleRounds (s.loadWorking.setRnd 0)).addOriginal.setRnd 0

/-- BLOCK (R74). -/
def execBlock (s : State) : Answer := .next (s.transform.finish 0)

/-- COPY (R71). -/
def execCopy (s : State) : Answer := .next (s.loadWorking.finish 0)

/-- QROUND (R72). A repeated index, which the decoder already rejects, raises IllegalCommand. -/
def execQround (a b c d : WIndex) (s : State) : Answer :=
  if PairwiseDistinct a b c d then .next ((s.setW (quarterRoundAt s.w a b c d)).finish 0)
  else .next (s.raise .illegalCommand)

/-- ADDSTATE (R73). -/
def execAddstate (s : State) : Answer := .next (s.addOriginal.finish 0)

end Sys2Proof.Machine
end

