-- ==== Sys2Proof/Machine/Combiner.lean ====
section
/-! DEFINITION. The Combiner: element-wise XOR with the keystream (R83) and COMBINE (R84). -/

namespace Sys2Proof.Machine

/-- Keystream byte `j mod 64` (R90). -/
def keystreamByte (ks : Bytes 64) (j : Nat) : Byte := ks[j % 64]'(by omega)

/-- Write to `out` the first `n` bytes of the chunk at offset `base`: text byte xor keystream byte, in increasing offset
order (R84 step 2, R89 step 5e). -/
def combineBytes (ks : Bytes 64) (text : Memory) (base : Nat) : Nat → Memory → Memory
  | 0, out => out
  | j + 1, out =>
    (combineBytes ks text base j out).write (base + j) (text.read (base + j) ^^^ keystreamByte ks j)

/-- The Combiner on the chunk of `n` bytes at offset `base` of IN and OUT (R83, R90). -/
def State.combineChunk (s : State) (base n : Nat) : State :=
  s.setOut (combineBytes s.ks s.inMem base n s.outMem)

/-- COMBINE (R84): `LEN > 64` is `LengthMismatch`, before any byte is read or written. -/
def execCombine (s : State) : Answer :=
  if s.len > 64 then .next (s.raise .lengthMismatch)
  else .next ((s.combineChunk 0 s.len).finish 0)

end Sys2Proof.Machine
end

