-- ==== Sys2Proof/Machine/Serializer.lean ====
section
/-! DEFINITION. The Serializer: Serialize (R80) and SERIALIZE (R81). -/

namespace Sys2Proof.Machine

/-- `Serialize(b)` (R80): `ks[4j + k] = BYTE_LE(b[j], k)`. -/
def serialize (b : Words 16) : Bytes 64 := Vector.ofFn fun i => byteLE (b[i.val / 4]'(by omega)) (i.val % 4)

/-- `KS <- Serialize(B)` (R81). -/
def State.serializeBlock (s : State) : State := s.setKs (serialize s.b)

/-- SERIALIZE (R81). -/
def execSerialize (s : State) : Answer := .next (s.serializeBlock.finish 0)

end Sys2Proof.Machine
end

