-- ==== Sys2Proof/Machine/StateBuilder.lean ====
section
/-! DEFINITION. The State Builder: BuildState (R61), CONSTRUCT (R62), INITSTATE (R63). -/

namespace Sys2Proof.Machine

/-- `BuildState(k, n, ctr)` (R61): four constants, eight key words, the counter, three nonce words. -/
def buildState (k : Words 8) (n : Words 3) (ctr : Word) : Words 16 :=
  #v[0x61707865, 0x3320646e, 0x79622d32, 0x6b206574,
    k[0], k[1], k[2], k[3], k[4], k[5], k[6], k[7],
    ctr, n[0], n[1], n[2]]

/-- CONSTRUCT (R62). A failure clears VALID before it raises; the key length is checked first (R109). -/
def execConstruct (s : State) : Answer :=
  if s.keyLen ≠ 32 then .next (s.invalidate.raise .invalidKeyLength)
  else if s.nonceLen ≠ 12 then .next (s.invalidate.raise .invalidNonceLength)
  else .next ((s.setContext (keyWords s.keyBuf) (nonceWords s.nonceBuf) s.ctrArg).finish 0)

/-- INITSTATE (R63): the counter is CTR_ARG, used as is. -/
def execInitstate (s : State) : Answer :=
  if s.valid = false then .next (s.raise .noContext)
  else .next ((s.setS (buildState s.k s.n s.ctrArg)).finish 0)

end Sys2Proof.Machine
end

