-- ==== Sys2Proof/Machine/Driver.lean ====
section
/-! DEFINITION. The Sequential Driver: counter overflow (R88), one block (R89 step 5), CIPHER (R89). -/

namespace Sys2Proof.Machine

/-- The keystream of one block: a function of key, nonce and counter only (R94). -/
def keystreamOf (k : Words 8) (n : Words 3) (ctr : Word) : Bytes 64 := serialize (blockOf (buildState k n ctr))

/-- Some block of a text of `len` bytes would need a counter above `0xFFFFFFFF`; over the naturals (R88). -/
def counterOverflows (ctr0 : Word) (len : Nat) : Bool :=
  decide (0 < ceil64 len ∧ 0xFFFFFFFF < ctr0.toNat + (ceil64 len - 1))

/-- Block `BLK` of a CIPHER (R89 step 5a to 5e), with the same operations as BLOCK, SERIALIZE and COMBINE; BLK counts it. -/
def State.cipherBlock (s : State) : State :=
  let keyed := (s.setS (s.s.set 12 (s.ctr0 + s.blk))).transform.serializeBlock
  (keyed.combineChunk (64 * s.blk.toNat) (chunkLen s.len s.blk.toNat)).setBlk (s.blk + 1)

/-- The first `n` blocks, in increasing order. -/
def State.cipherBlocks : Nat → State → State
  | 0, s => s
  | n + 1, s => (State.cipherBlocks n s).cipherBlock

/-- The State built once, BLK at the first block (R89 step 4). -/
def State.startCipher (s : State) : State := (s.setS (buildState s.k s.n s.ctr0)).setBlk 0

/-- CIPHER (R89): `NoContext` before `CounterOverflow` (R109), both before the first write. -/
def execCipher (s : State) : Answer :=
  if s.valid = false then .next (s.raise .noContext)
  else if counterOverflows s.ctr0 s.len then .next (s.raise .counterOverflow)
  else .next ((State.cipherBlocks (ceil64 s.len) s.startCipher).finish 0)

end Sys2Proof.Machine
end

