-- ==== Sys2Proof/Machine/Dispatch.lean ====
section
/-! DEFINITION. One arm per command: which meaning a decoded command has. -/

namespace Sys2Proof.Machine

def exec (i : Instr) (s : State) : Host.Outcome State Fault Refusal :=
  match i with
  | .construct => Sys2Proof.Machine.execConstruct s
  | .initstate => Sys2Proof.Machine.execInitstate s
  | .block => Sys2Proof.Machine.execBlock s
  | .serialize => Sys2Proof.Machine.execSerialize s
  | .combine => Sys2Proof.Machine.execCombine s
  | .cipher => Sys2Proof.Machine.execCipher s
  | .copy => Sys2Proof.Machine.execCopy s
  | .qround a b c d => Sys2Proof.Machine.execQround a b c d s
  | .addstate => Sys2Proof.Machine.execAddstate s

end Sys2Proof.Machine
end

