-- ==== Sys2Proof/Machine/Window.lean ====
section
/-! DEFINITION. The register window (R22): the map, who may read and write what, and the byte lanes (R34). -/

namespace Sys2Proof.Machine

/-- The offset in the window of a bus address, and none outside the 512 bytes from CORE_BASE (R22, U13). -/
def busOffset (addr : Nat) : Option Nat :=
  if Config.coreBase ≤ addr ∧ addr < Config.coreBase + 512 then some (addr - Config.coreBase) else none

/-- The register at a 4-byte-aligned offset, and none at a reserved offset or beyond 0x1FF (R22). -/
def windowReg (off : Nat) : Option WindowReg :=
  if off = 0x000 then some .cmd
  else if off = 0x004 then some .status
  else if off = 0x008 then some .faultLog
  else if off = 0x00C then some .keyLen
  else if off = 0x010 then some .nonceLen
  else if off = 0x014 then some .ctrArg
  else if off = 0x018 then some .lenLo
  else if off = 0x01C then some .lenHi
  else if 0x040 ≤ off ∧ off < 0x060 then some (.keyBuf (Fin.ofNat 8 ((off - 0x040) / 4)))
  else if 0x060 ≤ off ∧ off < 0x06C then some (.nonceBuf (Fin.ofNat 3 ((off - 0x060) / 4)))
  else if 0x080 ≤ off ∧ off < 0x0A0 then some (.k (Fin.ofNat 8 ((off - 0x080) / 4)))
  else if 0x0A0 ≤ off ∧ off < 0x0AC then some (.n (Fin.ofNat 3 ((off - 0x0A0) / 4)))
  else if off = 0x0AC then some .ctr0
  else if 0x0C0 ≤ off ∧ off < 0x100 then some (.s (Fin.ofNat 16 ((off - 0x0C0) / 4)))
  else if 0x100 ≤ off ∧ off < 0x140 then some (.w (Fin.ofNat 16 ((off - 0x100) / 4)))
  else if 0x140 ≤ off ∧ off < 0x180 then some (.b (Fin.ofNat 16 ((off - 0x140) / 4)))
  else if 0x180 ≤ off ∧ off < 0x1C0 then some (.ks (Fin.ofNat 16 ((off - 0x180) / 4)))
  else none

/-- The register an access asks for, or why the map does not allow the access (R22, R35, U3). -/
def windowAccess (off : Nat) (size : AccessSize) : Except Refusal WindowReg :=
  if size ≠ .word ∨ off % 4 ≠ 0 then .error (.notAlignedWord off)
  else
    match windowReg off with
    | none => .error (.reservedOffset off)
    | some r => .ok r

/-- The offset of a register, the inverse of the map (R22). -/
def WindowReg.offset : WindowReg → Nat
  | .cmd => 0x000
  | .status => 0x004
  | .faultLog => 0x008
  | .keyLen => 0x00C
  | .nonceLen => 0x010
  | .ctrArg => 0x014
  | .lenLo => 0x018
  | .lenHi => 0x01C
  | .keyBuf j => 0x040 + 4 * j.val
  | .nonceBuf j => 0x060 + 4 * j.val
  | .k j => 0x080 + 4 * j.val
  | .n j => 0x0A0 + 4 * j.val
  | .ctr0 => 0x0AC
  | .s i => 0x0C0 + 4 * i.val
  | .w i => 0x100 + 4 * i.val
  | .b i => 0x140 + 4 * i.val
  | .ks j => 0x180 + 4 * j.val

/-- What a host read of a register returns, and none for the write-only CMD (R22). -/
def State.readReg (s : State) : WindowReg → Option Word
  | .cmd => none
  | .status => some s.statusRead
  | .faultLog => some s.faultLog
  | .keyLen => some s.keyLen
  | .nonceLen => some s.nonceLen
  | .ctrArg => some s.ctrArg
  | .lenLo => some s.lenLo
  | .lenHi => some s.lenHi
  | .keyBuf j => some (wordOf s.keyBuf j.val (by omega))
  | .nonceBuf j => some (wordOf s.nonceBuf j.val (by omega))
  | .k j => some s.k[j]
  | .n j => some s.n[j]
  | .ctr0 => some s.ctr0
  | .s i => some s.s[i]
  | .w i => some s.w[i]
  | .b i => some s.b[i]
  | .ks j => some (wordOf s.ks j.val (by omega))

/-- The state after a host write of a register, and none for a read-only one (R22). A write of CMD starts a command (R15). -/
def State.writeReg (s : State) (v : Word) : WindowReg → Option State
  | .cmd => some { s with cmd := some v }
  | .status => none
  | .faultLog => none
  | .keyLen => some { s with keyLen := v }
  | .nonceLen => some { s with nonceLen := v }
  | .ctrArg => some { s with ctrArg := v }
  | .lenLo => some { s with lenLo := v }
  | .lenHi => some { s with lenHi := v }
  | .keyBuf j => some { s with keyBuf := putWord s.keyBuf j.val v }
  | .nonceBuf j => some { s with nonceBuf := putWord s.nonceBuf j.val v }
  | .k _ => none
  | .n _ => none
  | .ctr0 => none
  | .s i => some { s with s := s.s.set i v }
  | .w i => some { s with w := s.w.set i v }
  | .b i => some { s with b := s.b.set i v }
  | .ks j => some { s with ks := putWord s.ks j.val v }

end Sys2Proof.Machine
end

