-- ==== Sys2Proof/Machine/Interaction.lean ====
section
/-! DEFINITION. What each interaction of the host does (R133), while the CORE is idle and while it is busy (R125, R126),
and the execution of the command in CMD. -/

namespace Sys2Proof.Machine

/-- The CORE executes the command being executed, as one step (R127); an illegal word raises IllegalCommand (R106).
An idle CORE does nothing (R121). -/
def State.runCommand (s : State) : Answer :=
  match s.cmd with
  | none => .next s
  | some cw =>
    match decode cw with
    | .ok i => exec i s
    | .error _ => .next (s.raise .illegalCommand)

/-- The commands that access IN and OUT (R90): a reset that abandons one leaves OUT open below LEN (R124). -/
def touchesMessages : Instr → Bool
  | .combine => true
  | .cipher => true
  | .construct => false
  | .initstate => false
  | .block => false
  | .serialize => false
  | .copy => false
  | .qround _ _ _ _ => false
  | .addstate => false

/-- A CIPHER or COMBINE is being executed (R124, R126). -/
def State.usingMessages (s : State) : Bool :=
  match s.cmd with
  | none => false
  | some cw =>
    match decode cw with
    | .ok i => touchesMessages i
    | .error _ => false

/-- OUT after a reset (R120, R124): untouched, but where a CIPHER or COMBINE is abandoned each byte below LEN holds its old
value or the one the command would have written, a free choice per byte (log 6). -/
def State.outAfterReset (s : State) : Memory :=
  if s.usingMessages then
    match s.runCommand with
    | .next t => Memory.mix (Config.keepsOldByte s.draws) s.len s.outMem t.outMem
    | .fault _ => s.outMem
    | .refused _ => s.outMem
  else s.outMem

/-- The platform's reset at any time (R120, R124). -/
def State.hostReset (s : State) : State :=
  (s.setOut s.outAfterReset).drawOne.resetCore

/-- A host write of the register window: refused where the map does not allow it or `BUSY = 1` (R22, R125). -/
def State.hostWrite (s : State) (off : Nat) (size : AccessSize) (v : Word) : Answer :=
  match windowAccess off size with
  | .error r => .refused r
  | .ok reg =>
    if s.busy then .refused (.registerWhileBusy reg)
    else
      match s.writeReg v reg with
      | none => .refused (.writeOfReadOnly reg)
      | some t => .next t

/-- A host read of the register window: while `BUSY = 1` only STATUS may be read, and then what it shows beside BUSY is
drawn (R125, log 7). -/
def State.hostRead (s : State) (off : Nat) (size : AccessSize) : Answer :=
  match windowAccess off size with
  | .error r => .refused r
  | .ok reg =>
    if s.busy ∧ reg ≠ .status then .refused (.registerWhileBusy reg)
    else
      match s.readReg reg with
      | none => .refused .readOfWriteOnly
      | some v => .next (s.answer (.word v) (if s.busy then 1 else 0))

/-- A host access to the byte at an offset of IN or OUT, with the state it leads to: refused while `BUSY = 1`, whatever the command
and the offset ("the host must not access them during that time", R39; R126, R133, D16). -/
def State.hostMessage (s : State) (addr : BitVec 64) (t : State) : Answer :=
  if s.busy then .refused (.messageWhileBusy addr) else .next t

/-- One interaction of the host (R133). -/
def State.interact (s : State) : Input → Answer
  | .write off size v => s.hostWrite off size v
  | .read off size => s.hostRead off size
  | .writeIn addr v => s.hostMessage addr (s.setIn (s.inMem.write addr.toNat v))
  | .writeOut addr v => s.hostMessage addr (s.setOut (s.outMem.write addr.toNat v))
  | .readOut addr => s.hostMessage addr (s.answer (.byte (s.outMem.read addr.toNat)) 0)
  | .wait => s.runCommand
  | .reset => .next s.hostReset

end Sys2Proof.Machine
end

