-- ==== Sys2Proof/Machine/Step.lean ====
section
/-! DEFINITION. One step: the host's next interaction, or the CORE's, when the host has none (R7, R127, R134). -/

namespace Sys2Proof.Machine

/-- One step of host and CORE. With no interaction pending, a command being executed runs to its end (R130) and an idle CORE
does nothing (R121, R134). -/
def step (s : State) : Host.Outcome State Fault Refusal :=
  match s.inputs with
  | [] => s.runCommand
  | i :: rest => (s.takeInput rest).interact i

/-- `s` with a command word being executed and no host interaction before it, so that the next step executes it. -/
def State.withFetchWord (s : State) (nbits w : Nat) : State :=
  { s with cmd := some (BitVec.ofNat 32 (w % 2 ^ nbits)), inputs := [] }

end Sys2Proof.Machine
end

