-- ==== Sys2Proof/Machine/Pseudo.lean ====
section
/-! DEFINITION. The pseudo-commands (R53): each is a sequence the host issues, not a code of its own. -/

namespace Sys2Proof.Machine

/-- COLROUND (R53). -/
def colRound : List Instr := [.qround 0 4 8 12, .qround 1 5 9 13, .qround 2 6 10 14, .qround 3 7 11 15]

/-- DIAGROUND (R53). -/
def diagRound : List Instr := [.qround 0 5 10 15, .qround 1 6 11 12, .qround 2 7 8 13, .qround 3 4 9 14]

/-- DROUND (R53). -/
def dRound : List Instr := colRound ++ diagRound

/-- `n` times DROUND. -/
def dRounds : Nat → List Instr
  | 0 => []
  | n + 1 => dRounds n ++ dRound

/-- ROUNDS20: DROUND ten times (R53). -/
def rounds20 : List Instr := dRounds 10

/-- BLOCK.LONG: COPY, ROUNDS20, ADDSTATE, 82 commands (R53). -/
def blockLong : List Instr := .copy :: (rounds20 ++ [.addstate])

/-- The host's interactions for a list of commands: write each word to CMD and wait for `BUSY = 0` (R52). -/
def commandInputs : List Instr → List Input
  | [] => []
  | i :: is => .write 0x000 .word (encode i) :: .wait :: commandInputs is

/-- KEYSTREAM ctr: `WR CTR_ARG, ctr`, INITSTATE, BLOCK, SERIALIZE (R53). -/
def keystreamInputs (ctr : Word) : List Input :=
  .write 0x014 .word ctr :: commandInputs [.initstate, .block, .serialize]

/-- A list of commands executed one after another, each complete before the next starts (R39, R127). -/
def execAll : List Instr → State → Answer
  | [], s => .next s
  | i :: is, s =>
    match exec i s with
    | .next t => execAll is t
    | .fault r => .fault r
    | .refused r => .refused r

end Sys2Proof.Machine
end

