-- ==== Sys2Proof/Safety.lean ====
section
/-! DEFINITION. The terms claims use: when a run has gone wrong (R134), the invariant every step keeps, and what "unchanged" means. -/

namespace Sys2Proof.Machine

/-- A run has gone wrong: FAULTLOG is not 0, or a host action was refused (R134). -/
def goneWrong : Answer → Bool
  | .next s => s.faultLog != 0
  | .fault _ => true
  | .refused _ => true

/-- No command is being executed, and the sequencer position is 0 (R12, R13). -/
def State.Idle (s : State) : Prop := s.cmd = none ∧ s.blk = 0 ∧ s.rnd = 0

/-- FAULTLOG bits that read as 0: bit 0, bits 31:8, and the bit of `TaskFailure`, which is never raised (R14, R117). -/
def logReserved : Word := 0xFFFFFF11

/-- What holds after reset and is kept by every step. -/
structure State.Inv (s : State) : Prop where
  /-- BLK and RND are 0 between steps (R12). -/
  sequencer : s.blk = 0 ∧ s.rnd = 0
  /-- IN is in canonical form, with offsets below 2^64 (R30). -/
  textForm : s.inMem.wf = true ∧ s.inMem.inRange = true
  /-- OUT is in canonical form, with offsets below 2^64 (R30). -/
  outForm : s.outMem.wf = true ∧ s.outMem.inRange = true
  /-- The reserved bits of FAULTLOG read as 0 (R14). -/
  logForm : s.faultLog &&& logReserved = 0
  /-- RESULT is 0 or the code of an error the log records (R13, R14, R100). -/
  resultLogged : s.result = 0 ∨ ∃ e, e ≠ CmdError.taskFailure ∧ s.result = e.code ∧ s.faultLog &&& e.bit = e.bit

/-- Every register of R10 that has a stored value is 0, and no command is being executed (R26). -/
def State.Zeroed (s : State) : Prop :=
  (∀ i : Fin 16, s.w[i] = 0 ∧ s.s[i] = 0 ∧ s.b[i] = 0) ∧ (∀ i : Fin 64, s.ks[i] = 0) ∧ (∀ i : Fin 8, s.k[i] = 0) ∧
    (∀ i : Fin 3, s.n[i] = 0) ∧ (∀ i : Fin 32, s.keyBuf[i] = 0) ∧ (∀ i : Fin 12, s.nonceBuf[i] = 0) ∧ s.ctr0 = 0 ∧
    s.keyLen = 0 ∧ s.nonceLen = 0 ∧ s.ctrArg = 0 ∧ s.lenLo = 0 ∧ s.lenHi = 0 ∧ s.status = 0 ∧ s.busy = false ∧
    s.valid = false ∧ s.result = 0 ∧ s.faultLog = 0 ∧ s.blk = 0 ∧ s.rnd = 0

/-- The context is unchanged (R18). -/
def SameContext (s t : State) : Prop := t.k = s.k ∧ t.n = s.n ∧ t.ctr0 = s.ctr0 ∧ t.valid = s.valid

/-- The operand registers and buffers are unchanged (R16, R17). -/
def SameOperands (s t : State) : Prop :=
  t.keyBuf = s.keyBuf ∧ t.nonceBuf = s.nonceBuf ∧ t.keyLen = s.keyLen ∧ t.nonceLen = s.nonceLen ∧
    t.ctrArg = s.ctrArg ∧ t.lenLo = s.lenLo ∧ t.lenHi = s.lenHi

/-- Every byte of IN is unchanged. -/
def SameText (s t : State) : Prop := ∀ a, t.inMem.read a = s.inMem.read a

/-- Every byte of OUT is unchanged. -/
def SameOut (s t : State) : Prop := ∀ a, t.outMem.read a = s.outMem.read a

/-- The host's side is unchanged: its pending interactions, what it got back, and the count of free values. -/
def SameHost (s t : State) : Prop := t.inputs = s.inputs ∧ t.reply = s.reply ∧ t.draws = s.draws

/-- What no command changes: the operands, IN, and the host's side (R16, R17, R32). -/
def SameSurroundings (s t : State) : Prop := SameOperands s t ∧ SameText s t ∧ SameHost s t

/-- A command has ended in success (R13): RESULT 0, FAULTLOG unchanged, idle. -/
def Succeeded (s t : State) : Prop := t.result = 0 ∧ t.faultLog = s.faultLog ∧ t.Idle

/-- A command has ended in error `e` (R107): RESULT the code, exactly that FAULTLOG bit added, idle. -/
def Failed (e : CmdError) (s t : State) : Prop :=
  t.result = e.code ∧ (∀ i : Nat, t.faultLog.getLsbD i = (s.faultLog.getLsbD i || i == e.code.toNat)) ∧ t.Idle

end Sys2Proof.Machine
end

