-- ==== Sys2Proof/Certificates/Slice0/Obligations.lean ====
section
/-! DEFINITION. The statements for the provers, from the numbered rules of spec/. Each docstring names the rules it formalises. -/

open Sys2Proof Sys2Proof.Machine

/-! ## Encoding -/

/-- Command words written out from the encodings of 30_encoding.md decode to the commands they stand for. -/
def Obligations.DecodeSpecWords : Prop :=
  decode 0x00000001 = .ok .construct ∧ decode 0x00000002 = .ok .initstate ∧ decode 0x00000003 = .ok .block ∧
    decode 0x00000004 = .ok .serialize ∧ decode 0x00000005 = .ok .combine ∧ decode 0x00000006 = .ok .cipher ∧
    decode 0x00000010 = .ok .copy ∧ decode 0x00000012 = .ok .addstate ∧ decode 0x00c84011 = .ok (.qround 0 4 8 12) ∧
    decode 0x00cdef11 = .ok (.qround 15 14 13 12) ∧ decode 0x00e94311 = .ok (.qround 3 4 9 14)

/-- Decoding the word of a well-formed command gives the command back, at every value of every index (R45 to R47). -/
def Obligations.DecodeOfEncode : Prop :=
  ∀ i : Instr, i.WellFormed → decode (encode i) = .ok i

/-- A word that decodes is the word of the command it decodes to, and that command is well-formed (R45 to R50). -/
def Obligations.EncodeOfDecode : Prop :=
  ∀ (cw : Word) (i : Instr), decode cw = .ok i → i.WellFormed ∧ encode i = cw

/-- R49: a word is illegal exactly when its op is unassigned, a must-be-zero bit is set, or two QROUND indices are equal;
executing an illegal word raises IllegalCommand and changes nothing else. -/
def Obligations.IllegalWords : Prop :=
  ∀ cw : Word,
    ((∃ e, decode cw = .error e) ↔
      (cw.toNat % 2 ^ 8 ∉ [0x01, 0x02, 0x03, 0x04, 0x05, 0x06, 0x10, 0x11, 0x12]) ∨
      (cw.toNat % 2 ^ 8 ≠ 0x11 ∧ cw.toNat / 2 ^ 8 ≠ 0) ∨
      (cw.toNat % 2 ^ 8 = 0x11 ∧ cw.toNat / 2 ^ 24 ≠ 0) ∨
      (cw.toNat % 2 ^ 8 = 0x11 ∧
        ¬ [cw.toNat / 2 ^ 8 % 16, cw.toNat / 2 ^ 12 % 16, cw.toNat / 2 ^ 16 % 16, cw.toNat / 2 ^ 20 % 16].Nodup)) ∧
    ∀ s : State, s.cmd = some cw → s.inputs = [] → (∃ e, decode cw = .error e) →
      ∃ t, step s = .next t ∧ Failed .illegalCommand s t ∧ SameContext s t ∧ SameSurroundings s t ∧ SameOut s t ∧
        t.s = s.s ∧ t.w = s.w ∧ t.b = s.b ∧ t.ks = s.ks

/-- R50: a row's mask and match select it, rows do not overlap, and the only check after the match is QROUND's distinctness.
R50 is an inference the spec marks: "Rows cannot overlap because their `op` bytes differ." -/
def Obligations.RowsSelectedByMask : Prop :=
  (∀ (cw : Word) (i : Instr), decode cw = .ok i → cw &&& i.mask = i.pattern) ∧
  (∀ (cw : Word) (i : Instr), cw &&& i.mask = i.pattern →
    (∃ j, decode cw = .ok j ∧ j.op = i.op) ∨ (i.op = 0x11 ∧ decode cw = .error .repeatedIndex)) ∧
  ∀ (cw : Word) (i j : Instr), cw &&& i.mask = i.pattern → cw &&& j.mask = j.pattern → i.op = j.op

/-! ## Steps, the host's interactions, reset -/

/-- A command word being executed that decodes to `i` is executed as `exec i`, when the host has no interaction pending and
when its next one is `wait` (which is taken from the list, and what the host got back before is gone) (R7, R127). The list
of interactions and `wait` are the model's choice (log 2). That a command is one step is an inference the spec marks:
"Commands are atomic for the host." -/
def Obligations.StepExecutesDecodedCommand : Prop :=
  ∀ (s : State) (cw : Word) (i : Instr), s.cmd = some cw → decode cw = .ok i →
    (s.inputs = [] → step s = exec i s) ∧
    ∀ rest, s.inputs = .wait :: rest → step s = exec i { s with inputs := rest, reply := none }

/-- R15: a write of CMD when idle starts the command (BUSY 1, executed by the next step when the host does nothing else),
CMD cannot be read, and a write while busy is refused. That the word is kept while the command is executed is the model's
deduction (log 3); the list of interactions whose end makes the next step the CORE's, and the reply a write clears, are its
choices (logs 2, 4). -/
def Obligations.CommandWriteStarts : Prop :=
  ∀ (s : State) (cw : Word) (rest : List Input),
    (s.cmd = none → s.inputs = .write 0x000 .word cw :: rest →
      ∃ t, step s = .next t ∧ t = { s with inputs := rest, reply := none, cmd := some cw } ∧ t.busy = true ∧
        ∀ i, decode cw = .ok i → rest = [] → step t = exec i t) ∧
    (s.cmd = none → s.inputs = .read 0x000 .word :: rest → step s = .refused .readOfWriteOnly) ∧
    (s.busy = true → s.inputs = .write 0x000 .word cw :: rest → step s = .refused (.registerWhileBusy .cmd))

/-- R125: while BUSY = 1 every register access but a STATUS read is refused; a STATUS read shows BUSY = 1 and zero reserved
bits (R13), and changes nothing but the reply and the model's count of free values. The reply and the count are the model's own
fields (logs 4, 5); that the reserved bits read 0 while BUSY = 1 too, and that the other bits are free values, which the
statement does not constrain, is its choice (log 7). -/
def Obligations.BusyRegisterAccess : Prop :=
  ∀ (s : State) (off : Nat) (reg : WindowReg) (v : Word) (rest : List Input),
    s.busy = true → windowAccess off .word = .ok reg →
      (s.inputs = .write off .word v :: rest → step s = .refused (.registerWhileBusy reg)) ∧
      (s.inputs = .read off .word :: rest → reg ≠ .status → step s = .refused (.registerWhileBusy reg)) ∧
      (s.inputs = .read off .word :: rest → reg = .status →
        ∃ u, step s = .next { s with inputs := rest, reply := some (.word u), draws := s.draws + 1 } ∧
          u.getLsbD 0 = true ∧ u &&& 0xFFFFFF0C = 0)

/-- R13: an idle CORE's STATUS reads as 2 * VALID + 16 * RESULT, and the read changes nothing but the reply, which is a field
of the model's own (log 4). -/
def Obligations.IdleStatusRead : Prop :=
  ∀ (s : State) (rest : List Input), s.cmd = none → s.inputs = .read 0x004 .word :: rest →
    ∃ v : Word, step s = .next { s with inputs := rest, reply := some (.word v) } ∧
      v.toNat = 2 * s.valid.toNat + 16 * s.result.toNat

/-- R126: while a CIPHER or COMBINE is being executed the host's writes of IN, and its reads and writes of OUT, are refused. They
are while any other command is, and at every offset: "the host must not access them during that time" (R39), "not touch other
registers, `IN`, `OUT`" (R133), "forbidden except reading `STATUS`; a violating host is refused by the model" (D16). -/
def Obligations.MessagesWhileBusy : Prop :=
  ∀ (s : State) (addr : BitVec 64) (v : Byte) (rest : List Input), s.busy = true →
    (s.inputs = .writeIn addr v :: rest → step s = .refused (.messageWhileBusy addr)) ∧
    (s.inputs = .writeOut addr v :: rest → step s = .refused (.messageWhileBusy addr)) ∧
    (s.inputs = .readOut addr :: rest → step s = .refused (.messageWhileBusy addr))

/-- The host of an idle CORE fills IN and reads OUT (R30, R31, R133): a byte written reads back and every other byte of its space
reads as before, an OUT byte read is the one stored, and every register, the other space and every interaction still to come
are unchanged. That the host may write OUT is the model's reading (log 11); the list of interactions and the reply are its own
fields (logs 2, 4). -/
def Obligations.MessageAccessAllowed : Prop :=
  ∀ (s : State) (addr : BitVec 64) (v : Byte) (rest : List Input), s.cmd = none → s.inMem.wf = true → s.outMem.wf = true →
    (s.inputs = .writeIn addr v :: rest →
      ∃ m : Memory, step s = .next { s with inputs := rest, reply := none, inMem := m } ∧
        ∀ a, m.read a = if a = addr.toNat then v else s.inMem.read a) ∧
    (s.inputs = .writeOut addr v :: rest →
      ∃ m : Memory, step s = .next { s with inputs := rest, reply := none, outMem := m } ∧
        ∀ a, m.read a = if a = addr.toNat then v else s.outMem.read a) ∧
    (s.inputs = .readOut addr :: rest →
      step s = .next { s with inputs := rest, reply := some (.byte (s.outMem.read addr.toNat)) })

/-- R22, R35, U3: an access that is not an aligned 32-bit word, an access at a reserved offset or beyond 0x1FF, a write of a
read-only register and a read of CMD are refused. Which reason is named where several hold is the model's choice (log 12). -/
def Obligations.WindowRefusals : Prop :=
  ∀ (s : State) (off : Nat) (size : AccessSize) (v : Word) (rest : List Input),
    s.inputs = .write off size v :: rest ∨ s.inputs = .read off size :: rest →
      (size ≠ .word ∨ off % 4 ≠ 0 → step s = .refused (.notAlignedWord off)) ∧
      (size = .word → off % 4 = 0 →
        (0x020 ≤ off ∧ off < 0x040) ∨ (0x06C ≤ off ∧ off < 0x080) ∨ (0x0B0 ≤ off ∧ off < 0x0C0) ∨ 0x1C0 ≤ off →
        step s = .refused (.reservedOffset off)) ∧
      (size = .word → off % 4 = 0 → s.cmd = none → s.inputs = .write off size v :: rest →
        off = 0x004 ∨ off = 0x008 ∨ (0x080 ≤ off ∧ off < 0x0B0) →
        ∃ reg, reg.offset = off ∧ step s = .refused (.writeOfReadOnly reg)) ∧
      (size = .word → off = 0x000 → s.cmd = none → s.inputs = .read off size :: rest →
        step s = .refused .readOfWriteOnly)

/-- The window's map is R22's table, written out, and the registers' offsets are its inverse on aligned offsets (R22). -/
def Obligations.WindowMap : Prop :=
  (windowReg 0x000 = some .cmd ∧ windowReg 0x004 = some .status ∧ windowReg 0x008 = some .faultLog ∧
    windowReg 0x00C = some .keyLen ∧ windowReg 0x010 = some .nonceLen ∧ windowReg 0x014 = some .ctrArg ∧
    windowReg 0x018 = some .lenLo ∧ windowReg 0x01C = some .lenHi ∧ windowReg 0x0AC = some .ctr0 ∧
    (∀ j : Fin 8, windowReg (0x040 + 4 * j.val) = some (.keyBuf j) ∧ windowReg (0x080 + 4 * j.val) = some (.k j)) ∧
    (∀ j : Fin 3, windowReg (0x060 + 4 * j.val) = some (.nonceBuf j) ∧ windowReg (0x0A0 + 4 * j.val) = some (.n j)) ∧
    ∀ i : Fin 16, windowReg (0x0C0 + 4 * i.val) = some (.s i) ∧ windowReg (0x100 + 4 * i.val) = some (.w i) ∧
      windowReg (0x140 + 4 * i.val) = some (.b i) ∧ windowReg (0x180 + 4 * i.val) = some (.ks i)) ∧
  (∀ r : WindowReg, windowReg r.offset = some r ∧ r.offset % 4 = 0 ∧ r.offset < 512) ∧
    ∀ off r, windowReg off = some r → off % 4 = 0 → r.offset = off

/-- The host of an idle CORE reads at each offset of R22 the register the table gives it, byte registers as little-endian words
(R34), and the read changes nothing but the reply (STATUS: IdleStatusRead; CMD: WindowRefusals). It reads back the word it wrote
to a read-write register, and every other register reads as before. The list of interactions and the reply are the model's own
fields (logs 2, 4). -/
def Obligations.WindowReadBack : Prop :=
  (∀ (s : State) (rest : List Input), s.cmd = none →
    let reads := fun (off : Nat) (v : Word) =>
      step { s with inputs := .read off .word :: rest } = .next { s with inputs := rest, reply := some (.word v) }
    reads 0x008 s.faultLog ∧ reads 0x00C s.keyLen ∧ reads 0x010 s.nonceLen ∧ reads 0x014 s.ctrArg ∧
    reads 0x018 s.lenLo ∧ reads 0x01C s.lenHi ∧ reads 0x0AC s.ctr0 ∧
    (∀ j : Fin 8, reads (0x080 + 4 * j.val) s.k[j] ∧ reads (0x040 + 4 * j.val) (packLE
      (s.keyBuf[4 * j.val]'(by omega)) (s.keyBuf[4 * j.val + 1]'(by omega)) (s.keyBuf[4 * j.val + 2]'(by omega))
      (s.keyBuf[4 * j.val + 3]'(by omega)))) ∧
    (∀ j : Fin 3, reads (0x0A0 + 4 * j.val) s.n[j] ∧ reads (0x060 + 4 * j.val) (packLE
      (s.nonceBuf[4 * j.val]'(by omega)) (s.nonceBuf[4 * j.val + 1]'(by omega)) (s.nonceBuf[4 * j.val + 2]'(by omega))
      (s.nonceBuf[4 * j.val + 3]'(by omega)))) ∧
    ∀ i : Fin 16, reads (0x0C0 + 4 * i.val) s.s[i] ∧ reads (0x100 + 4 * i.val) s.w[i] ∧ reads (0x140 + 4 * i.val) s.b[i] ∧
      reads (0x180 + 4 * i.val) (packLE (s.ks[4 * i.val]'(by omega)) (s.ks[4 * i.val + 1]'(by omega))
        (s.ks[4 * i.val + 2]'(by omega)) (s.ks[4 * i.val + 3]'(by omega)))) ∧
  ∀ (s : State) (r : WindowReg) (v : Word) (rest : List Input), s.cmd = none → r ≠ .cmd → (s.writeReg v r).isSome = true →
    s.inputs = .write r.offset .word v :: .read r.offset .word :: rest →
      ∃ t u, step s = .next t ∧ step t = .next u ∧ u.reply = some (.word v) ∧ u.inputs = rest ∧
        (∀ r', r' ≠ r → u.readReg r' = s.readReg r') ∧ SameText s u ∧ SameOut s u

/-- The host of an idle CORE writes at each read-write offset of R22 the register the table gives it, and nothing else: a word
register takes the word, byte `k` of the word goes to byte `4j + k` of a byte register (R34). The list of interactions and the
reply a write clears are the model's own fields (logs 2, 4). -/
def Obligations.WindowWrites : Prop :=
  ∀ (s : State) (v : Word) (rest : List Input), s.cmd = none →
    let writes := fun (off : Nat) (t : State) =>
      step { s with inputs := .write off .word v :: rest } = .next { t with inputs := rest, reply := none }
    let lane := fun (old : Byte) (i j : Nat) => if i / 4 = j then v.toNat / 2 ^ (8 * (i % 4)) % 2 ^ 8 else old.toNat
    writes 0x00C { s with keyLen := v } ∧ writes 0x010 { s with nonceLen := v } ∧ writes 0x014 { s with ctrArg := v } ∧
    writes 0x018 { s with lenLo := v } ∧ writes 0x01C { s with lenHi := v } ∧
    (∀ j : Fin 8, ∃ x : Bytes 32, writes (0x040 + 4 * j.val) { s with keyBuf := x } ∧
      ∀ i : Fin 32, x[i].toNat = lane s.keyBuf[i] i.val j.val) ∧
    (∀ j : Fin 3, ∃ x : Bytes 12, writes (0x060 + 4 * j.val) { s with nonceBuf := x } ∧
      ∀ i : Fin 12, x[i].toNat = lane s.nonceBuf[i] i.val j.val) ∧
    ∀ j : Fin 16, writes (0x0C0 + 4 * j.val) { s with s := s.s.set j v } ∧ writes (0x100 + 4 * j.val) { s with w := s.w.set j v } ∧
      writes (0x140 + 4 * j.val) { s with b := s.b.set j v } ∧
      ∃ x : Bytes 64, writes (0x180 + 4 * j.val) { s with ks := x } ∧
        ∀ i : Fin 64, x[i].toNat = lane s.ks[i] i.val j.val

/-- R26: after reset every register that has a stored value is 0, so that VALID is 0 and no command is being executed, and a reset
of an idle CORE does not affect IN and OUT. -/
def Obligations.ResetValues : Prop :=
  State.reset.Zeroed ∧ ∀ (s : State) (rest : List Input), s.cmd = none → s.inputs = .reset :: rest →
    ∃ t, step s = .next t ∧ t.Zeroed ∧ t.inMem = s.inMem ∧ t.outMem = s.outMem

/-- R120: the platform's reset in any state, a command being executed or not, gives every register its reset value and leaves
IN alone; OUT is left alone unless a CIPHER or COMBINE is abandoned (for which see ResetAbandonsOutput). The host's pending
interactions and the count of free values are the model's own and are left out (logs 2, 5). -/
def Obligations.ResetInput : Prop :=
  ∀ (s : State) (rest : List Input), s.inputs = .reset :: rest →
    ∃ t, step s = .next t ∧ SameText s t ∧ (s.usingMessages = false → SameOut s t) ∧
      { t with inMem := [], outMem := [], inputs := [], draws := 0 } = State.reset

/-- R124: after a reset that abandons a CIPHER or COMBINE, each OUT byte below LEN holds its old value or the value the
command would have written, every other OUT byte its old value, and the registers hold their reset values. -/
def Obligations.ResetAbandonsOutput : Prop :=
  ∀ (s : State) (cw : Word) (i : Instr) (rest : List Input), s.cmd = some cw → decode cw = .ok i →
    i = .cipher ∨ i = .combine → s.outMem.wf = true → s.inputs = .reset :: rest →
      ∃ t u, step s = .next t ∧ exec i { s with inputs := rest, reply := none } = .next u ∧
        (∀ a, a < s.len → t.outMem.read a = s.outMem.read a ∨ t.outMem.read a = u.outMem.read a) ∧
        (∀ a, s.len ≤ a → t.outMem.read a = s.outMem.read a) ∧
        { t with inMem := [], outMem := [], inputs := [], draws := 0 } = State.reset

/-- An idle CORE with no host interaction pending does nothing (R121, R134; the list of interactions is the model's, log 2). -/
def Obligations.IdleDoesNothing : Prop :=
  ∀ s : State, s.cmd = none → s.inputs = [] → step s = .next s

/-- R122: what each command does on the reset state. An inference the spec marks: "Commands on the reset state. With all
registers zero: INITSTATE and CIPHER raise `NoContext`." -/
def Obligations.CommandsOnResetState : Prop :=
  (∃ t, exec .initstate State.reset = .next t ∧ Failed .noContext State.reset t) ∧
  (∃ t, exec .cipher State.reset = .next t ∧ Failed .noContext State.reset t) ∧
  (∃ t, exec .construct State.reset = .next t ∧ Failed .invalidKeyLength State.reset t) ∧
  exec .copy State.reset = .next State.reset ∧
  exec .block State.reset = .next State.reset ∧
  exec .addstate State.reset = .next State.reset ∧
  exec .serialize State.reset = .next State.reset ∧
  exec .combine State.reset = .next State.reset ∧
  ∀ a b c d, PairwiseDistinct a b c d → exec (.qround a b c d) State.reset = .next State.reset

/-! ## Commands: the next state each gives, and its frame -/

/-- R62, R101, R102: CONSTRUCT checks the key length, then the nonce length; on success K, N, CTR0 and VALID are written;
on failure VALID is cleared and the error raised; nothing else is written. -/
def Obligations.ConstructCommand : Prop :=
  decode 0x00000001 = .ok .construct ∧ ∀ s : State, ∃ t, exec .construct s = .next t ∧
    (s.keyLen ≠ 32 → Failed .invalidKeyLength s t ∧ t.valid = false ∧ t.k = s.k ∧ t.n = s.n ∧ t.ctr0 = s.ctr0) ∧
    (s.keyLen = 32 → s.nonceLen ≠ 12 →
      Failed .invalidNonceLength s t ∧ t.valid = false ∧ t.k = s.k ∧ t.n = s.n ∧ t.ctr0 = s.ctr0) ∧
    (s.keyLen = 32 → s.nonceLen = 12 → Succeeded s t ∧ t.valid = true ∧ t.ctr0 = s.ctrArg ∧
      (∀ j : Fin 8, t.k[j].toNat = (s.keyBuf[4 * j.val]'(by omega)).toNat + (s.keyBuf[4 * j.val + 1]'(by omega)).toNat * 2 ^ 8 +
        (s.keyBuf[4 * j.val + 2]'(by omega)).toNat * 2 ^ 16 + (s.keyBuf[4 * j.val + 3]'(by omega)).toNat * 2 ^ 24) ∧
      (∀ j : Fin 3, t.n[j].toNat = (s.nonceBuf[4 * j.val]'(by omega)).toNat +
        (s.nonceBuf[4 * j.val + 1]'(by omega)).toNat * 2 ^ 8 + (s.nonceBuf[4 * j.val + 2]'(by omega)).toNat * 2 ^ 16 +
        (s.nonceBuf[4 * j.val + 3]'(by omega)).toNat * 2 ^ 24)) ∧
    SameSurroundings s t ∧ SameOut s t ∧ t.s = s.s ∧ t.w = s.w ∧ t.b = s.b ∧ t.ks = s.ks

/-- R63: INITSTATE lays out the State with CTR_ARG as the counter, or raises NoContext without a context. -/
def Obligations.InitstateCommand : Prop :=
  decode 0x00000002 = .ok .initstate ∧ ∀ s : State, ∃ t, exec .initstate s = .next t ∧
    (s.valid = false → Failed .noContext s t ∧ t.s = s.s) ∧
    (s.valid = true → Succeeded s t ∧ t.s[0] = 0x61707865 ∧ t.s[1] = 0x3320646e ∧ t.s[2] = 0x79622d32 ∧
      t.s[3] = 0x6b206574 ∧ (∀ j : Fin 8, t.s[4 + j.val]'(by omega) = s.k[j]) ∧ t.s[12] = s.ctrArg ∧
      ∀ j : Fin 3, t.s[13 + j.val]'(by omega) = s.n[j]) ∧
    SameContext s t ∧ SameSurroundings s t ∧ SameOut s t ∧ t.w = s.w ∧ t.b = s.b ∧ t.ks = s.ks

/-- R71: COPY writes S to W and nothing else. -/
def Obligations.CopyCommand : Prop :=
  decode 0x00000010 = .ok .copy ∧ ∀ s : State, ∃ t, exec .copy s = .next t ∧ Succeeded s t ∧ (∀ i : Fin 16, t.w[i] = s.s[i]) ∧
    SameContext s t ∧ SameSurroundings s t ∧ SameOut s t ∧ t.s = s.s ∧ t.b = s.b ∧ t.ks = s.ks

/-- R72: QROUND with distinct indices replaces its four working words by the quarter-round's (R66, written out), leaves the
other twelve and everything else; with a repeated index it raises IllegalCommand. -/
def Obligations.QroundCommand : Prop :=
  ∀ (a b c d : WIndex) (s : State), (PairwiseDistinct a b c d → decode
      (BitVec.ofNat 32 (0x11 + a.val * 2 ^ 8 + b.val * 2 ^ 12 + c.val * 2 ^ 16 + d.val * 2 ^ 20)) = .ok (.qround a b c d)) ∧
    ∃ t, exec (.qround a b c d) s = .next t ∧
    (PairwiseDistinct a b c d → Succeeded s t ∧
      (let a1 := s.w[a] + s.w[b]
       let d1 := rotl32 (s.w[d] ^^^ a1) 16
       let c1 := s.w[c] + d1
       let b1 := rotl32 (s.w[b] ^^^ c1) 12
       let a2 := a1 + b1
       let d2 := rotl32 (d1 ^^^ a2) 8
       let c2 := c1 + d2
       let b2 := rotl32 (b1 ^^^ c2) 7
       t.w[a] = a2 ∧ t.w[b] = b2 ∧ t.w[c] = c2 ∧ t.w[d] = d2) ∧
      ∀ i : WIndex, i ≠ a → i ≠ b → i ≠ c → i ≠ d → t.w[i] = s.w[i]) ∧
    (¬ PairwiseDistinct a b c d → Failed .illegalCommand s t ∧ t.w = s.w) ∧
    SameContext s t ∧ SameSurroundings s t ∧ SameOut s t ∧ t.s = s.s ∧ t.b = s.b ∧ t.ks = s.ks

/-- R73: ADDSTATE writes the word-wise sum of W and S to B, each word modulo 2^32, and nothing else. -/
def Obligations.AddstateCommand : Prop :=
  decode 0x00000012 = .ok .addstate ∧ ∀ s : State, ∃ t, exec .addstate s = .next t ∧ Succeeded s t ∧
    (∀ i : Fin 16, t.b[i].toNat = (s.w[i].toNat + s.s[i].toNat) % 2 ^ 32) ∧
    SameContext s t ∧ SameSurroundings s t ∧ SameOut s t ∧ t.s = s.s ∧ t.w = s.w ∧ t.ks = s.ks

/-- BLOCK leaves the post-round working array in W and its word-wise sum with S in B; S and everything else is unchanged
(R70, R74). -/
def Obligations.BlockCommand : Prop :=
  decode 0x00000003 = .ok .block ∧ ∀ s : State, ∃ t, exec .block s = .next t ∧ Succeeded s t ∧ t.w = doubleRoundsOf 10 s.s ∧
    (∀ i : Fin 16, t.b[i].toNat = (t.w[i].toNat + s.s[i].toNat) % 2 ^ 32) ∧
    SameContext s t ∧ SameSurroundings s t ∧ SameOut s t ∧ t.s = s.s ∧ t.ks = s.ks

/-- BLOCK is the 82-command sequence COPY, ten double rounds of QROUNDs, ADDSTATE: both end in the same state (R53, R74). An
inference the spec marks: "BLOCK has exactly the effect on `W` and `B` of the 82-command sequence". -/
def Obligations.BlockIsBlockLong : Prop :=
  blockLong.length = 82 ∧ ∀ s : State, ∃ t, exec .block s = .next t ∧ execAll blockLong s = .next t

/-- R77: W and B after BLOCK depend on S before it and on nothing else. -/
def Obligations.BlockIsPure : Prop :=
  ∀ s s' : State, s.s = s'.s → ∃ t t', exec .block s = .next t ∧ exec .block s' = .next t' ∧ t.b = t'.b ∧ t.w = t'.w

/-- R80, R81: SERIALIZE writes KS[4j + k] = bits 8k+7 to 8k of B[j], and nothing else. -/
def Obligations.SerializeCommand : Prop :=
  decode 0x00000004 = .ok .serialize ∧ ∀ s : State, ∃ t, exec .serialize s = .next t ∧ Succeeded s t ∧
    (∀ (j : Fin 16) (k : Fin 4), (t.ks[4 * j.val + k.val]'(by omega)).toNat = s.b[j].toNat / 2 ^ (8 * k.val) % 256) ∧
    SameContext s t ∧ SameSurroundings s t ∧ SameOut s t ∧ t.s = s.s ∧ t.w = s.w ∧ t.b = s.b

/-- R84, R103: COMBINE writes IN[j] xor KS[j] to OUT[j] for j < LEN and no other byte; LEN > 64 raises LengthMismatch with no
byte written; registers are unchanged. -/
def Obligations.CombineCommand : Prop :=
  decode 0x00000005 = .ok .combine ∧ ∀ s : State, s.outMem.wf = true → ∃ t, exec .combine s = .next t ∧
    (64 < s.len → Failed .lengthMismatch s t ∧ SameOut s t) ∧
    (s.len ≤ 64 → Succeeded s t ∧
      (∀ (j : Nat) (hj : j < 64), j < s.len → t.outMem.read j = s.inMem.read j ^^^ s.ks[j]) ∧
      ∀ a, s.len ≤ a → t.outMem.read a = s.outMem.read a) ∧
    SameContext s t ∧ SameSurroundings s t ∧ t.s = s.s ∧ t.w = s.w ∧ t.b = s.b ∧ t.ks = s.ks

/-- CIPHER with a context and no overflow succeeds: OUT[p] is IN[p] xor byte p mod 64 of the keystream of counter
CTR0 + p div 64, which does not wrap; no other byte of OUT, no operand, no context register changes (R33, R87, R89, R92). The
form of the OUT clause is an inference the spec marks, R90: "Text byte at offset `p` is XORed with keystream byte `p mod 64`". -/
def Obligations.CipherCommand : Prop :=
  decode 0x00000006 = .ok .cipher ∧ ∀ s : State,
    s.valid = true → s.ctr0.toNat + (s.len + 63) / 64 ≤ 2 ^ 32 → s.outMem.wf = true →
    ∃ t, exec .cipher s = .next t ∧ Succeeded s t ∧
      (∀ p, p < s.len → (s.ctr0 + BitVec.ofNat 32 (p / 64)).toNat = s.ctr0.toNat + p / 64 ∧
        t.outMem.read p = s.inMem.read p ^^^
          (keystreamOf s.k s.n (s.ctr0 + BitVec.ofNat 32 (p / 64)))[p % 64]'(by omega)) ∧
      (∀ a, s.len ≤ a → t.outMem.read a = s.outMem.read a) ∧ SameContext s t ∧ SameSurroundings s t

/-- R95: the scratch registers after CIPHER: the last block's values after a text of at least one block; S rebuilt and
W, B, KS unchanged after an empty text; all four unchanged after a failure. -/
def Obligations.CipherScratch : Prop :=
  ∀ s : State, ∃ t, exec .cipher s = .next t ∧
    (t.result = 0 → 0 < s.len → t.s = buildState s.k s.n (s.ctr0 + BitVec.ofNat 32 (ceil64 s.len - 1)) ∧
      t.w = doubleRoundsOf 10 t.s ∧ (∀ i : Fin 16, t.b[i] = t.w[i] + t.s[i]) ∧ t.ks = serialize t.b) ∧
    (t.result = 0 → s.len = 0 → t.s = buildState s.k s.n s.ctr0 ∧ t.w = s.w ∧ t.b = s.b ∧ t.ks = s.ks) ∧
    (t.result ≠ 0 → t.s = s.s ∧ t.w = s.w ∧ t.b = s.b ∧ t.ks = s.ks)

/-- R88, R104: CIPHER overflows exactly when some block's counter would pass 0xFFFFFFFF, that is when the text is longer than
64 * (2^32 - CTR0) bytes; it then raises CounterOverflow and writes no byte of OUT and no other register; a text of at most
that length is accepted. -/
def Obligations.CounterOverflowPolicy : Prop :=
  (∀ (c : Word) (len : Nat), (counterOverflows c len = true ↔ 2 ^ 32 - c.toNat < ceil64 len) ∧
    (counterOverflows c len = false ↔ ∀ i, i < ceil64 len → c.toNat + i ≤ 0xFFFFFFFF) ∧
    (counterOverflows c len = false ↔ len ≤ 64 * (2 ^ 32 - c.toNat))) ∧
  ∀ s : State, s.valid = true →
    ∃ t, exec .cipher s = .next t ∧
      (64 * (2 ^ 32 - s.ctr0.toNat) < s.len → Failed .counterOverflow s t ∧ SameContext s t ∧ SameSurroundings s t ∧
        SameOut s t ∧ t.s = s.s ∧ t.w = s.w ∧ t.b = s.b ∧ t.ks = s.ks) ∧
      (s.len ≤ 64 * (2 ^ 32 - s.ctr0.toNat) → Succeeded s t)

/-- R105, R109: without a context INITSTATE and CIPHER raise NoContext, CIPHER also when the counter would overflow, and
change nothing else. -/
def Obligations.NoContextRaised : Prop :=
  ∀ (s : State) (i : Instr), s.valid = false → i = .initstate ∨ i = .cipher →
    ∃ t, exec i s = .next t ∧ Failed .noContext s t ∧ SameContext s t ∧ SameSurroundings s t ∧ SameOut s t ∧
      t.s = s.s ∧ t.w = s.w ∧ t.b = s.b ∧ t.ks = s.ks

/-! ## Functions -/

/-- R60: PACK_LE is the little-endian sum of its bytes, and word `j` of a byte sequence packs its bytes 4j to 4j+3. -/
def Obligations.PackLittleEndian : Prop :=
  (∀ b0 b1 b2 b3 : Byte, (packLE b0 b1 b2 b3).toNat =
    b0.toNat + b1.toNat * 2 ^ 8 + b2.toNat * 2 ^ 16 + b3.toNat * 2 ^ 24) ∧
  ∀ (m : Nat) (x : Bytes m) (j : Nat) (h : 4 * j + 3 < m), (wordOf x j h).toNat =
    x[4 * j].toNat + x[4 * j + 1].toNat * 2 ^ 8 + x[4 * j + 2].toNat * 2 ^ 16 + x[4 * j + 3].toNat * 2 ^ 24

/-- R61: the layout of the State, and that changing the counter changes word 12 alone. The last clause is an inference the
spec marks: "Changing only `ctr` changes only `s[12]`". -/
def Obligations.StateLayout : Prop :=
  ∀ (k : Words 8) (n : Words 3) (ctr ctr' : Word),
    let s := buildState k n ctr
    s[0] = 0x61707865 ∧ s[1] = 0x3320646e ∧ s[2] = 0x79622d32 ∧ s[3] = 0x6b206574 ∧
      (∀ j : Fin 8, s[4 + j.val]'(by omega) = k[j]) ∧ s[12] = ctr ∧ (∀ j : Fin 3, s[13 + j.val]'(by omega) = n[j]) ∧
      buildState k n ctr' = s.set 12 ctr'

/-- R65: ROTL32 by its formula for n in 1 to 31, the identity for 0; bit i becomes bit (i + n) mod 32; the source's vector. -/
def Obligations.RotateLeft : Prop :=
  (∀ (x : Word) (n : Nat), 1 ≤ n → n ≤ 31 →
    (rotl32 x n).toNat = x.toNat * 2 ^ n % 2 ^ 32 + x.toNat / 2 ^ (32 - n) ∧
      ∀ i, i < 32 → (rotl32 x n).getLsbD ((i + n) % 32) = x.getLsbD i) ∧
  (∀ x : Word, rotl32 x 0 = x) ∧ rotl32 0x7998bfda 7 = 0xcc5fed3c

/-- R66: the quarter-round is a bijection on four words, fixes zero, and gives the source's vector. An inference the spec
marks: "a bijection on them (each assignment is invertible)". -/
def Obligations.QuarterRoundBijective : Prop :=
  Function.Bijective quarterRound ∧
    quarterRound { a := 0, b := 0, c := 0, d := 0 } = { a := 0, b := 0, c := 0, d := 0 } ∧
    quarterRound { a := 0x11111111, b := 0x01020304, c := 0x9b8d6f43, d := 0x01234567 } =
      { a := 0xea2a92f4, b := 0xcb1cf8ce, c := 0x4581472e, d := 0x5881c4bb }

/-- Quarter-rounds on disjoint index groups commute, and the four groups of a column round, like those of a diagonal round,
are disjoint and cover all sixteen indices (R75). An inference the spec marks: "the four quarter-rounds of one round read
and write disjoint registers". -/
def Obligations.LanesIndependent : Prop :=
  (∀ (w : Words 16) (a b c d e f g h : WIndex), [a, b, c, d, e, f, g, h].Nodup →
    quarterRoundAt (quarterRoundAt w a b c d) e f g h = quarterRoundAt (quarterRoundAt w e f g h) a b c d) ∧
  ([0, 4, 8, 12, 1, 5, 9, 13, 2, 6, 10, 14, 3, 7, 11, 15] : List WIndex).Nodup ∧
  ([0, 5, 10, 15, 1, 6, 11, 12, 2, 7, 8, 13, 3, 4, 9, 14] : List WIndex).Nodup

/-- R82: serialising a block and packing the bytes gives the block back, packing 64 bytes and serialising gives the bytes
back, and the word view of KS at offset 0x180 + 4j reads as B[j] after SERIALIZE. An inference the spec marks: "Serialize
and `PACK_LE` are inverse". -/
def Obligations.SerializePackInverse : Prop :=
  (∀ (b : Words 16) (j : Fin 16), wordOf (serialize b) j.val (by omega) = b[j]) ∧
  (∀ ks : Bytes 64, serialize (Vector.ofFn fun j : Fin 16 => wordOf ks j.val (by omega)) = ks) ∧
  ∀ (s : State) (j : Fin 16), ∃ t, exec .serialize s = .next t ∧
    windowReg (0x180 + 4 * j.val) = some (.ks j) ∧ t.readReg (.ks j) = some s.b[j]

/-- R86: `ceil64` blocks partition a text: every offset below `len` lies in exactly one block, every block but the last has
64 bytes, the last has the remainder, and an empty text has none. -/
def Obligations.TextPartition : Prop :=
  ceil64 0 = 0 ∧ ∀ len : Nat,
    (∀ i, i + 1 < ceil64 len → chunkLen len i = 64) ∧
    (0 < len → chunkLen len (ceil64 len - 1) = len - 64 * (ceil64 len - 1) ∧ 1 ≤ chunkLen len (ceil64 len - 1) ∧
      chunkLen len (ceil64 len - 1) ≤ 64) ∧
    (∀ p, p < len → ∃! i, i < ceil64 len ∧ 64 * i ≤ p ∧ p < 64 * i + chunkLen len i) ∧
    ∀ p i, i < ceil64 len → p < 64 * i + chunkLen len i → p < len

/-! ## Whole-machine rules -/

/-- R85: COMBINE on its own output (OUT copied to IN by the host), with the same KS and LEN, gives the text back, and no
byte at or above LEN is written. An inference the spec marks: "Combine is its own inverse for a fixed keystream". -/
def Obligations.CombineSelfInverse : Prop :=
  ∀ (s : State) (m : Memory), s.len ≤ 64 → s.outMem.wf = true →
    ∃ t, exec .combine s = .next t ∧ ((∀ p, p < s.len → m.read p = t.outMem.read p) →
      ∃ u, exec .combine { t with inMem := m } = .next u ∧ (∀ p, p < s.len → u.outMem.read p = s.inMem.read p) ∧
        ∀ p, s.len ≤ p → u.outMem.read p = s.outMem.read p)

/-- R93: with the same context and LEN, CIPHER on the output of CIPHER (OUT copied to IN by the host) returns the text. -/
def Obligations.CipherSelfInverse : Prop :=
  ∀ (s : State) (m : Memory), s.valid = true → s.ctr0.toNat + (s.len + 63) / 64 ≤ 2 ^ 32 → s.outMem.wf = true →
    ∃ t, exec .cipher s = .next t ∧ t.result = 0 ∧ ((∀ p, p < s.len → m.read p = t.outMem.read p) →
      ∃ u, exec .cipher { t with inMem := m } = .next u ∧ u.result = 0 ∧
        ∀ p, p < s.len → u.outMem.read p = s.inMem.read p)

/-- R94 (b): the prefix property: CIPHER of the first `L1` bytes gives the first `L1` bytes of CIPHER of `L2 ≥ L1` bytes of
the same text under the same context. An inference the spec marks: "prefix property: for `L1 <= L2`, CIPHER of the first
`L1` bytes". -/
def Obligations.CipherPrefix : Prop :=
  ∀ s1 s2 : State, s1.valid = true → SameContext s1 s2 → SameText s1 s2 → s1.len ≤ s2.len →
    s2.ctr0.toNat + (s2.len + 63) / 64 ≤ 2 ^ 32 → s1.outMem.wf = true → s2.outMem.wf = true →
      ∃ t1 t2, exec .cipher s1 = .next t1 ∧ exec .cipher s2 = .next t2 ∧
        ∀ p, p < s1.len → t1.outMem.read p = t2.outMem.read p

/-- R94 (c): the restart property: CIPHER with base counter CTR0 + m on the text from offset 64 m onward gives the bytes
CIPHER gives there with base counter CTR0 on the whole text, when neither overflows. An inference the spec marks: "restart
property: CIPHER with base counter `CTR0 + m`". -/
def Obligations.CipherRestart : Prop :=
  ∀ (s1 s2 : State) (m : Nat), s1.valid = true → s2.valid = true → s2.k = s1.k → s2.n = s1.n →
    s2.ctr0.toNat = s1.ctr0.toNat + m → s1.len = 64 * m + s2.len →
    (∀ p, p < s2.len → s2.inMem.read p = s1.inMem.read (64 * m + p)) →
    s1.ctr0.toNat + (s1.len + 63) / 64 ≤ 2 ^ 32 → s1.outMem.wf = true → s2.outMem.wf = true →
      ∃ t1 t2, exec .cipher s1 = .next t1 ∧ exec .cipher s2 = .next t2 ∧
        ∀ p, p < s2.len → t2.outMem.read p = t1.outMem.read (64 * m + p)

/-- R97: CIPHER's output does not depend on S, W, B, KS, BLK or anything else an earlier command left but the context, and
CIPHER does not change the context. -/
def Obligations.CipherCarriesNoState : Prop :=
  ∀ s s' : State, SameContext s s' → SameText s s' → SameOut s s' → s'.len = s.len →
    s.outMem.wf = true → s'.outMem.wf = true →
      ∃ t t', exec .cipher s = .next t ∧ exec .cipher s' = .next t' ∧ t'.result = t.result ∧ SameOut t t' ∧
        SameContext s t

/-- For a text of one block, CIPHER is INITSTATE with CTR_ARG = CTR0, then BLOCK, SERIALIZE and COMBINE: both end in the
same state ("the per-block computation is identical and must be shared", R89; program P6). The whole equality is the spec's
program P6 of 95_test_vectors.md read as a rule. -/
def Obligations.OneBlockCipherByHand : Prop :=
  ∀ s : State, s.valid = true → s.ctrArg = s.ctr0 → 0 < s.len → s.len ≤ 64 →
    ∃ t, exec .cipher s = .next t ∧ execAll [.initstate, .block, .serialize, .combine] s = .next t

/-- KEYSTREAM ctr, the host's sequence WR CTR_ARG, INITSTATE, BLOCK, SERIALIZE, run step by step under a context, leaves in KS
the keystream of key, nonce and ctr (R53). The run reads the host's list of interactions, the model's choice (log 2). -/
def Obligations.KeystreamSequence : Prop :=
  ∀ (s : State) (ctr : Word), s.cmd = none → s.valid = true → s.inputs = keystreamInputs ctr →
    ∃ t, Sys2Proof.core.run 7 s = .next t ∧ t.ks = keystreamOf s.k s.n ctr ∧ t.ctrArg = ctr ∧ t.inputs = [] ∧
      t.cmd = none ∧ t.result = 0 ∧ SameContext s t

/-- Every command, in every state, answers a next state in which it is over: none is refused, faults or hangs (R13, R130).
An inference the spec marks: "Every command terminates." -/
def Obligations.EveryCommandEnds : Prop :=
  ∀ (i : Instr) (s : State), ∃ t, exec i s = .next t ∧ t.Idle

/-- R64: only CONSTRUCT writes the context, and only reset besides: a step that does not execute a CONSTRUCT (with no interaction
pending, or a `wait`) and is no reset keeps it. -/
def Obligations.ContextImmutable : Prop :=
  (∀ (i : Instr) (s t : State), i ≠ .construct → exec i s = .next t → SameContext s t) ∧
  ∀ s t : State, step s = .next t →
    SameContext s t ∨ (∃ rest, s.inputs = .reset :: rest) ∨
      ((∃ cw, s.cmd = some cw ∧ decode cw = .ok .construct) ∧ (s.inputs = [] ∨ ∃ rest, s.inputs = .wait :: rest))

/-- The frame of every command, by the "w" entries of R23: what no command writes, and what each register is written by. An
inference the spec marks: the table of R23, "Who reads and writes what." -/
def Obligations.CommandFrames : Prop :=
  ∀ (i : Instr) (s t : State), exec i s = .next t →
    SameSurroundings s t ∧
    (i ≠ .construct → SameContext s t) ∧
    (i ≠ .initstate → i ≠ .cipher → t.s = s.s) ∧
    ((∀ a b c d, i ≠ .qround a b c d) → i ≠ .copy → i ≠ .block → i ≠ .cipher → t.w = s.w) ∧
    (i ≠ .addstate → i ≠ .block → i ≠ .cipher → t.b = s.b) ∧
    (i ≠ .serialize → i ≠ .cipher → t.ks = s.ks) ∧
    (i ≠ .combine → i ≠ .cipher → SameOut s t) ∧
    (s.outMem.wf = true → ∀ a, s.len ≤ a → t.outMem.read a = s.outMem.read a)

/-- R107: `raise E` writes the code to RESULT, sets the code's FAULTLOG bit, clears BLK, RND and BUSY, and nothing else; a command
that ends in an error has done this alone, but for CONSTRUCT's `VALID <- 0` before it. -/
def Obligations.RaiseEntry : Prop :=
  (∀ (s : State) (e : CmdError), Failed e s (s.raise e) ∧ (s.raise e).busy = false ∧ SameContext s (s.raise e) ∧
    SameSurroundings s (s.raise e) ∧ SameOut s (s.raise e) ∧ (s.raise e).s = s.s ∧ (s.raise e).w = s.w ∧
    (s.raise e).b = s.b ∧ (s.raise e).ks = s.ks) ∧
  ∀ (i : Instr) (s t : State), exec i s = .next t → t.result ≠ 0 →
    ∃ e, t = s.raise e ∨ (i = .construct ∧ t = s.invalidate.raise e)

/-- R108: a command that ends in an error leaves S, W, B, KS, K, N, CTR0 and OUT exactly as they were. An inference the spec
marks: "Errors are precise and all-or-nothing." -/
def Obligations.ErrorsArePrecise : Prop :=
  ∀ (i : Instr) (s t : State), exec i s = .next t → t.result ≠ 0 →
    t.s = s.s ∧ t.w = s.w ∧ t.b = s.b ∧ t.ks = s.ks ∧ t.k = s.k ∧ t.n = s.n ∧ t.ctr0 = s.ctr0 ∧ t.outMem = s.outMem

/-- R110: which command can raise which error; everything not listed cannot be raised. An inference the spec marks: "Which
command can raise what (everything not listed cannot)". -/
def Obligations.ErrorsByCommand : Prop :=
  ∀ (i : Instr) (s t : State), exec i s = .next t → t.result = 0 ∨
    (i = .construct ∧ (t.result = 1 ∨ t.result = 2)) ∨
    (i = .initstate ∧ t.result = 6) ∨
    ((∃ a b c d, i = .qround a b c d ∧ ¬ PairwiseDistinct a b c d) ∧ t.result = 7) ∨
    (i = .combine ∧ t.result = 3) ∨
    (i = .cipher ∧ (t.result = 6 ∨ t.result = 5))

/-- R14: outside reset, a step sets the FAULTLOG bit of the error a command has just ended with and changes no other bit. -/
def Obligations.FaultLogSticky : Prop :=
  ∀ s t : State, (∀ rest, s.inputs ≠ .reset :: rest) → step s = .next t → ∀ n : Nat,
    t.faultLog.getLsbD n =
      (s.faultLog.getLsbD n || (s.cmd.isSome && t.cmd.isNone && n != 0 && t.result.toNat == n))

/-- The reset state meets the invariant. -/
def Obligations.InvAtReset : Prop := State.reset.Inv

/-- Every step keeps the invariant: BLK and RND are 0, IN and OUT stay in canonical form with offsets below 2^64, the reserved
FAULTLOG bits stay 0, and RESULT is 0 or the code of a logged error (R12, R14, R30, R100). The canonical form is that of the
model's own memory lists (log 1). -/
def Obligations.InvKeptByStep : Prop :=
  ∀ s t : State, s.Inv → step s = .next t → t.Inv
end

