-- ==== Sys2Proof/Laws/Memory.lean ====
section
/-! SUPPORT. Message memory: a read after a write, the canonical form and the range are kept, and what a mix reads (R31, R32). -/

namespace Sys2Proof.Machine

theorem Memory.wf_cons {a : Nat} {v : Byte} {m : Memory} :
    Memory.wf ((a, v) :: m) = true ↔
      v ≠ Memory.unlisted ∧ (∀ c ∈ m.head?, a < c.1) ∧ Memory.wf m = true := by
  cases m with
  | nil => simp [Memory.wf]
  | cons c m => obtain ⟨b, u⟩ := c; simp [Memory.wf, and_assoc]

/-- In canonical form an offset below the first listed one reads as unlisted. -/
theorem Memory.read_below {m : Memory} {a : Nat} (hw : m.wf = true) (ha : ∀ c ∈ m.head?, a < c.1) :
    m.read a = Memory.unlisted := by
  induction m with
  | nil => rfl
  | cons c m ih =>
    obtain ⟨b, u⟩ := c
    obtain ⟨-, hb, hm⟩ := Memory.wf_cons.mp hw
    have hab : a < b := by simpa using ha
    simp only [Memory.read, hab.ne, if_false]
    exact ih hm fun c hc => hab.trans (hb c hc)

/-- A write sets the byte it names and no other (R32). -/
theorem Memory.read_write {m : Memory} (hw : m.wf = true) (a b : Nat) (v : Byte) :
    (m.write a v).read b = if b = a then v else m.read b := by
  induction m with
  | nil =>
    by_cases hv : v = Memory.unlisted <;> by_cases h : b = a <;> simp [Memory.write, Memory.read, hv, h]
  | cons c m ih =>
    obtain ⟨x, u⟩ := c
    obtain ⟨-, hx, hm⟩ := Memory.wf_cons.mp hw
    have below : ∀ y, y < x → Memory.read m y = Memory.unlisted := fun y hy =>
      Memory.read_below hm fun c hc => hy.trans (hx c hc)
    have at_x : Memory.read m x = Memory.unlisted := Memory.read_below hm hx
    rcases lt_trichotomy a x with h | h | h
    · by_cases hv : v = Memory.unlisted
      · by_cases hb : b = a
        · subst hb; simp [Memory.write, Memory.read, h, hv, h.ne, below b h]
        · simp [Memory.write, h, hv, hb]
      · simp [Memory.write, Memory.read, h, hv]
    · subst h
      by_cases hv : v = Memory.unlisted
      · by_cases hb : b = a
        · subst hb; simp [Memory.write, hv, at_x]
        · simp [Memory.write, Memory.read, hv, hb]
      · by_cases hb : b = a <;> simp [Memory.write, Memory.read, hv, hb]
    · have h1 : ¬ a < x := by omega
      have h2 : ¬ a = x := by omega
      simp only [Memory.write, h1, h2, if_false, Memory.read, ih hm]
      by_cases hb : b = x
      · have : ¬ b = a := by omega
        simp [hb]; omega
      · simp [hb]

theorem Memory.read_write_same {m : Memory} (hw : m.wf = true) (a : Nat) (v : Byte) : (m.write a v).read a = v := by
  simp [Memory.read_write hw]

theorem Memory.read_write_other {m : Memory} (hw : m.wf = true) {a b : Nat} (h : b ≠ a) (v : Byte) :
    (m.write a v).read b = m.read b := by
  simp [Memory.read_write hw, h]

/-- The first offset listed after a write is the written one or the old first. -/
theorem Memory.head_write {m : Memory} {a : Nat} {v : Byte} {x : Nat} (hw : m.wf = true)
    (hm : ∀ c ∈ m.head?, x < c.1) (ha : x < a) : ∀ c ∈ (m.write a v).head?, x < c.1 := by
  cases m with
  | nil => by_cases hv : v = Memory.unlisted <;> simp [Memory.write, hv, ha]
  | cons c m =>
    obtain ⟨b, u⟩ := c
    have hb : x < b := by simpa using hm
    obtain ⟨-, hbm, -⟩ := Memory.wf_cons.mp hw
    intro c hc
    by_cases h1 : a < b
    · by_cases hv : v = Memory.unlisted <;> simp [Memory.write, h1, hv] at hc <;> subst hc <;> assumption
    · by_cases h2 : a = b
      · by_cases hv : v = Memory.unlisted
        · simp only [Memory.write, h2, hv, if_true, if_false, lt_irrefl] at hc
          exact hb.trans (hbm c hc)
        · simp [Memory.write, h2, hv] at hc; subst hc; exact hb
      · simp [Memory.write, h1, h2] at hc; subst hc; exact hb

/-- A write keeps the canonical form. -/
theorem Memory.write_wf {m : Memory} (hw : m.wf = true) (a : Nat) (v : Byte) : (m.write a v).wf = true := by
  induction m with
  | nil => by_cases hv : v = Memory.unlisted <;> simp [Memory.write, Memory.wf, hv]
  | cons c m ih =>
    obtain ⟨b, u⟩ := c
    obtain ⟨hu, hb, hm⟩ := Memory.wf_cons.mp hw
    by_cases h1 : a < b
    · by_cases hv : v = Memory.unlisted
      · simpa [Memory.write, h1, hv] using hw
      · simp only [Memory.write, h1, hv, if_true, if_false]
        exact Memory.wf_cons.mpr ⟨hv, by simpa using h1, hw⟩
    · by_cases h2 : a = b
      · by_cases hv : v = Memory.unlisted
        · simpa [Memory.write, h2, hv] using hm
        · simp only [Memory.write, h2, hv, if_true, if_false, lt_irrefl]
          exact Memory.wf_cons.mpr ⟨hv, hb, hm⟩
      · simp only [Memory.write, h1, h2, if_false]
        exact Memory.wf_cons.mpr ⟨hu, Memory.head_write hm hb (by omega), ih hm⟩

/-- A write below 2^64 keeps every listed offset below 2^64. -/
theorem Memory.write_inRange {m : Memory} (hm : m.inRange = true) {a : Nat} (ha : a < 2 ^ 64) (v : Byte) :
    (m.write a v).inRange = true := by
  induction m with
  | nil => by_cases hv : v = Memory.unlisted <;> simp [Memory.write, Memory.inRange, hv]; omega
  | cons c m ih =>
    obtain ⟨b, u⟩ := c
    simp only [Memory.inRange, List.all_cons, Bool.and_eq_true, decide_eq_true_eq] at hm ih ⊢
    by_cases h1 : a < b
    · by_cases hv : v = Memory.unlisted <;>
        simp only [Memory.write, h1, hv, if_true, if_false, List.all_cons, Bool.and_eq_true, decide_eq_true_eq]
      · exact hm
      · exact ⟨ha, hm⟩
    · by_cases h2 : a = b
      · by_cases hv : v = Memory.unlisted
        · simpa [Memory.write, h2, hv] using hm.2
        · simp only [Memory.write, h2, hv, if_true, if_false, lt_irrefl, List.all_cons, Bool.and_eq_true,
            decide_eq_true_eq]
          exact hm
      · simp only [Memory.write, h1, h2, if_false, List.all_cons, Bool.and_eq_true, decide_eq_true_eq]
        exact ⟨hm.1, ih hm.2⟩

/-- An offset that is not listed reads as unlisted. -/
theorem Memory.read_unlisted {m : Memory} {a : Nat} (h : a ∉ m.map Prod.fst) : m.read a = Memory.unlisted := by
  induction m with
  | nil => rfl
  | cons c m ih =>
    obtain ⟨b, u⟩ := c
    simp only [List.map_cons, List.mem_cons, not_or] at h
    simp only [Memory.read, h.1, if_false]
    exact ih h.2

theorem Memory.mixAt_wf (keeps : Nat → Bool) (len : Nat) (new : Memory) (as : List Nat) {m : Memory} (hm : m.wf = true) :
    (Memory.mixAt keeps len new as m).wf = true := by
  induction as generalizing m with
  | nil => exact hm
  | cons a as ih =>
    rw [Memory.mixAt]
    split
    · exact ih (Memory.write_wf hm _ _)
    · exact ih hm

theorem Memory.mixAt_inRange (keeps : Nat → Bool) (len : Nat) (new : Memory) (as : List Nat) {m : Memory}
    (hlen : len ≤ 2 ^ 64) (hm : m.inRange = true) : (Memory.mixAt keeps len new as m).inRange = true := by
  induction as generalizing m with
  | nil => exact hm
  | cons a as ih =>
    rw [Memory.mixAt]
    split
    · rename_i h
      simp only [Bool.and_eq_true, decide_eq_true_eq] at h
      exact ih (Memory.write_inRange hm (by omega) _)
    · exact ih hm

theorem Memory.mixAt_read (keeps : Nat → Bool) (len : Nat) (new : Memory) (as : List Nat) {m : Memory} (hm : m.wf = true)
    (a : Nat) : (Memory.mixAt keeps len new as m).read a =
      if a ∈ as ∧ a < len ∧ keeps a = false then new.read a else m.read a := by
  induction as generalizing m with
  | nil => simp [Memory.mixAt]
  | cons x as ih =>
    rw [Memory.mixAt]
    split
    · rename_i h
      simp only [Bool.and_eq_true, decide_eq_true_eq, Bool.not_eq_true'] at h
      rw [ih (Memory.write_wf hm _ _), Memory.read_write hm]
      by_cases hx : a = x
      · subst hx; simp [h]
      · simp [hx]
    · rename_i h
      rw [ih hm]
      simp only [Bool.and_eq_true, decide_eq_true_eq, Bool.not_eq_true'] at h
      by_cases hx : a = x
      · subst hx; simp [h]
      · simp [hx]

/-- A mix reads the new byte below `len` where the old one is not kept, and the old byte everywhere else (R124, U4). -/
theorem Memory.mix_read (keeps : Nat → Bool) (len : Nat) {old new : Memory} (ho : old.wf = true) (a : Nat) :
    (Memory.mix keeps len old new).read a = if a < len ∧ keeps a = false then new.read a else old.read a := by
  rw [Memory.mix, Memory.mixAt_read keeps len new _ ho]
  by_cases hm : a ∈ old.map Prod.fst ++ new.map Prod.fst
  · simp [hm]
  · simp only [List.mem_append, not_or] at hm
    simp [hm, Memory.read_unlisted hm.1, Memory.read_unlisted hm.2]

theorem Memory.mix_wf (keeps : Nat → Bool) (len : Nat) {old : Memory} (new : Memory) (ho : old.wf = true) :
    (Memory.mix keeps len old new).wf = true := Memory.mixAt_wf keeps len new _ ho

theorem Memory.mix_inRange (keeps : Nat → Bool) (len : Nat) {old : Memory} (new : Memory) (hlen : len ≤ 2 ^ 64)
    (ho : old.inRange = true) : (Memory.mix keeps len old new).inRange = true :=
  Memory.mixAt_inRange keeps len new _ hlen ho

/-- The memories of the reset state are in canonical form. -/
theorem State.reset_wf : State.reset.inMem.wf = true ∧ State.reset.outMem.wf = true := by decide

end Sys2Proof.Machine
end

