-- ==== Sys2Proof/Laws/State.lean ====
section
/-! SUPPORT. One lemma per field per named update of the state, each true by rfl. The proofs are written `(rfl)`, not `rfl`,
so that simp rewrites with the lemma and leaves no comparison of whole states to a later check. -/

namespace Sys2Proof.Machine

/-! Fields after writing W. -/

@[simp] theorem State.setW_w (s : State) (v : Words 16) : (s.setW v).w = v := (rfl)
@[simp] theorem State.setW_s (s : State) (v : Words 16) : (s.setW v).s = s.s := (rfl)
@[simp] theorem State.setW_b (s : State) (v : Words 16) : (s.setW v).b = s.b := (rfl)
@[simp] theorem State.setW_ks (s : State) (v : Words 16) : (s.setW v).ks = s.ks := (rfl)
@[simp] theorem State.setW_k (s : State) (v : Words 16) : (s.setW v).k = s.k := (rfl)
@[simp] theorem State.setW_n (s : State) (v : Words 16) : (s.setW v).n = s.n := (rfl)
@[simp] theorem State.setW_ctr0 (s : State) (v : Words 16) : (s.setW v).ctr0 = s.ctr0 := (rfl)
@[simp] theorem State.setW_valid (s : State) (v : Words 16) : (s.setW v).valid = s.valid := (rfl)
@[simp] theorem State.setW_keyBuf (s : State) (v : Words 16) : (s.setW v).keyBuf = s.keyBuf := (rfl)
@[simp] theorem State.setW_nonceBuf (s : State) (v : Words 16) : (s.setW v).nonceBuf = s.nonceBuf := (rfl)
@[simp] theorem State.setW_keyLen (s : State) (v : Words 16) : (s.setW v).keyLen = s.keyLen := (rfl)
@[simp] theorem State.setW_nonceLen (s : State) (v : Words 16) : (s.setW v).nonceLen = s.nonceLen := (rfl)
@[simp] theorem State.setW_ctrArg (s : State) (v : Words 16) : (s.setW v).ctrArg = s.ctrArg := (rfl)
@[simp] theorem State.setW_lenLo (s : State) (v : Words 16) : (s.setW v).lenLo = s.lenLo := (rfl)
@[simp] theorem State.setW_lenHi (s : State) (v : Words 16) : (s.setW v).lenHi = s.lenHi := (rfl)
@[simp] theorem State.setW_cmd (s : State) (v : Words 16) : (s.setW v).cmd = s.cmd := (rfl)
@[simp] theorem State.setW_result (s : State) (v : Words 16) : (s.setW v).result = s.result := (rfl)
@[simp] theorem State.setW_faultLog (s : State) (v : Words 16) : (s.setW v).faultLog = s.faultLog := (rfl)
@[simp] theorem State.setW_blk (s : State) (v : Words 16) : (s.setW v).blk = s.blk := (rfl)
@[simp] theorem State.setW_rnd (s : State) (v : Words 16) : (s.setW v).rnd = s.rnd := (rfl)
@[simp] theorem State.setW_inMem (s : State) (v : Words 16) : (s.setW v).inMem = s.inMem := (rfl)
@[simp] theorem State.setW_outMem (s : State) (v : Words 16) : (s.setW v).outMem = s.outMem := (rfl)
@[simp] theorem State.setW_inputs (s : State) (v : Words 16) : (s.setW v).inputs = s.inputs := (rfl)
@[simp] theorem State.setW_reply (s : State) (v : Words 16) : (s.setW v).reply = s.reply := (rfl)
@[simp] theorem State.setW_draws (s : State) (v : Words 16) : (s.setW v).draws = s.draws := (rfl)

/-! Fields after writing S. -/

@[simp] theorem State.setS_w (s : State) (v : Words 16) : (s.setS v).w = s.w := (rfl)
@[simp] theorem State.setS_s (s : State) (v : Words 16) : (s.setS v).s = v := (rfl)
@[simp] theorem State.setS_b (s : State) (v : Words 16) : (s.setS v).b = s.b := (rfl)
@[simp] theorem State.setS_ks (s : State) (v : Words 16) : (s.setS v).ks = s.ks := (rfl)
@[simp] theorem State.setS_k (s : State) (v : Words 16) : (s.setS v).k = s.k := (rfl)
@[simp] theorem State.setS_n (s : State) (v : Words 16) : (s.setS v).n = s.n := (rfl)
@[simp] theorem State.setS_ctr0 (s : State) (v : Words 16) : (s.setS v).ctr0 = s.ctr0 := (rfl)
@[simp] theorem State.setS_valid (s : State) (v : Words 16) : (s.setS v).valid = s.valid := (rfl)
@[simp] theorem State.setS_keyBuf (s : State) (v : Words 16) : (s.setS v).keyBuf = s.keyBuf := (rfl)
@[simp] theorem State.setS_nonceBuf (s : State) (v : Words 16) : (s.setS v).nonceBuf = s.nonceBuf := (rfl)
@[simp] theorem State.setS_keyLen (s : State) (v : Words 16) : (s.setS v).keyLen = s.keyLen := (rfl)
@[simp] theorem State.setS_nonceLen (s : State) (v : Words 16) : (s.setS v).nonceLen = s.nonceLen := (rfl)
@[simp] theorem State.setS_ctrArg (s : State) (v : Words 16) : (s.setS v).ctrArg = s.ctrArg := (rfl)
@[simp] theorem State.setS_lenLo (s : State) (v : Words 16) : (s.setS v).lenLo = s.lenLo := (rfl)
@[simp] theorem State.setS_lenHi (s : State) (v : Words 16) : (s.setS v).lenHi = s.lenHi := (rfl)
@[simp] theorem State.setS_cmd (s : State) (v : Words 16) : (s.setS v).cmd = s.cmd := (rfl)
@[simp] theorem State.setS_result (s : State) (v : Words 16) : (s.setS v).result = s.result := (rfl)
@[simp] theorem State.setS_faultLog (s : State) (v : Words 16) : (s.setS v).faultLog = s.faultLog := (rfl)
@[simp] theorem State.setS_blk (s : State) (v : Words 16) : (s.setS v).blk = s.blk := (rfl)
@[simp] theorem State.setS_rnd (s : State) (v : Words 16) : (s.setS v).rnd = s.rnd := (rfl)
@[simp] theorem State.setS_inMem (s : State) (v : Words 16) : (s.setS v).inMem = s.inMem := (rfl)
@[simp] theorem State.setS_outMem (s : State) (v : Words 16) : (s.setS v).outMem = s.outMem := (rfl)
@[simp] theorem State.setS_inputs (s : State) (v : Words 16) : (s.setS v).inputs = s.inputs := (rfl)
@[simp] theorem State.setS_reply (s : State) (v : Words 16) : (s.setS v).reply = s.reply := (rfl)
@[simp] theorem State.setS_draws (s : State) (v : Words 16) : (s.setS v).draws = s.draws := (rfl)

/-! Fields after writing B. -/

@[simp] theorem State.setB_w (s : State) (v : Words 16) : (s.setB v).w = s.w := (rfl)
@[simp] theorem State.setB_s (s : State) (v : Words 16) : (s.setB v).s = s.s := (rfl)
@[simp] theorem State.setB_b (s : State) (v : Words 16) : (s.setB v).b = v := (rfl)
@[simp] theorem State.setB_ks (s : State) (v : Words 16) : (s.setB v).ks = s.ks := (rfl)
@[simp] theorem State.setB_k (s : State) (v : Words 16) : (s.setB v).k = s.k := (rfl)
@[simp] theorem State.setB_n (s : State) (v : Words 16) : (s.setB v).n = s.n := (rfl)
@[simp] theorem State.setB_ctr0 (s : State) (v : Words 16) : (s.setB v).ctr0 = s.ctr0 := (rfl)
@[simp] theorem State.setB_valid (s : State) (v : Words 16) : (s.setB v).valid = s.valid := (rfl)
@[simp] theorem State.setB_keyBuf (s : State) (v : Words 16) : (s.setB v).keyBuf = s.keyBuf := (rfl)
@[simp] theorem State.setB_nonceBuf (s : State) (v : Words 16) : (s.setB v).nonceBuf = s.nonceBuf := (rfl)
@[simp] theorem State.setB_keyLen (s : State) (v : Words 16) : (s.setB v).keyLen = s.keyLen := (rfl)
@[simp] theorem State.setB_nonceLen (s : State) (v : Words 16) : (s.setB v).nonceLen = s.nonceLen := (rfl)
@[simp] theorem State.setB_ctrArg (s : State) (v : Words 16) : (s.setB v).ctrArg = s.ctrArg := (rfl)
@[simp] theorem State.setB_lenLo (s : State) (v : Words 16) : (s.setB v).lenLo = s.lenLo := (rfl)
@[simp] theorem State.setB_lenHi (s : State) (v : Words 16) : (s.setB v).lenHi = s.lenHi := (rfl)
@[simp] theorem State.setB_cmd (s : State) (v : Words 16) : (s.setB v).cmd = s.cmd := (rfl)
@[simp] theorem State.setB_result (s : State) (v : Words 16) : (s.setB v).result = s.result := (rfl)
@[simp] theorem State.setB_faultLog (s : State) (v : Words 16) : (s.setB v).faultLog = s.faultLog := (rfl)
@[simp] theorem State.setB_blk (s : State) (v : Words 16) : (s.setB v).blk = s.blk := (rfl)
@[simp] theorem State.setB_rnd (s : State) (v : Words 16) : (s.setB v).rnd = s.rnd := (rfl)
@[simp] theorem State.setB_inMem (s : State) (v : Words 16) : (s.setB v).inMem = s.inMem := (rfl)
@[simp] theorem State.setB_outMem (s : State) (v : Words 16) : (s.setB v).outMem = s.outMem := (rfl)
@[simp] theorem State.setB_inputs (s : State) (v : Words 16) : (s.setB v).inputs = s.inputs := (rfl)
@[simp] theorem State.setB_reply (s : State) (v : Words 16) : (s.setB v).reply = s.reply := (rfl)
@[simp] theorem State.setB_draws (s : State) (v : Words 16) : (s.setB v).draws = s.draws := (rfl)

/-! Fields after writing KS. -/

@[simp] theorem State.setKs_w (s : State) (v : Bytes 64) : (s.setKs v).w = s.w := (rfl)
@[simp] theorem State.setKs_s (s : State) (v : Bytes 64) : (s.setKs v).s = s.s := (rfl)
@[simp] theorem State.setKs_b (s : State) (v : Bytes 64) : (s.setKs v).b = s.b := (rfl)
@[simp] theorem State.setKs_ks (s : State) (v : Bytes 64) : (s.setKs v).ks = v := (rfl)
@[simp] theorem State.setKs_k (s : State) (v : Bytes 64) : (s.setKs v).k = s.k := (rfl)
@[simp] theorem State.setKs_n (s : State) (v : Bytes 64) : (s.setKs v).n = s.n := (rfl)
@[simp] theorem State.setKs_ctr0 (s : State) (v : Bytes 64) : (s.setKs v).ctr0 = s.ctr0 := (rfl)
@[simp] theorem State.setKs_valid (s : State) (v : Bytes 64) : (s.setKs v).valid = s.valid := (rfl)
@[simp] theorem State.setKs_keyBuf (s : State) (v : Bytes 64) : (s.setKs v).keyBuf = s.keyBuf := (rfl)
@[simp] theorem State.setKs_nonceBuf (s : State) (v : Bytes 64) : (s.setKs v).nonceBuf = s.nonceBuf := (rfl)
@[simp] theorem State.setKs_keyLen (s : State) (v : Bytes 64) : (s.setKs v).keyLen = s.keyLen := (rfl)
@[simp] theorem State.setKs_nonceLen (s : State) (v : Bytes 64) : (s.setKs v).nonceLen = s.nonceLen := (rfl)
@[simp] theorem State.setKs_ctrArg (s : State) (v : Bytes 64) : (s.setKs v).ctrArg = s.ctrArg := (rfl)
@[simp] theorem State.setKs_lenLo (s : State) (v : Bytes 64) : (s.setKs v).lenLo = s.lenLo := (rfl)
@[simp] theorem State.setKs_lenHi (s : State) (v : Bytes 64) : (s.setKs v).lenHi = s.lenHi := (rfl)
@[simp] theorem State.setKs_cmd (s : State) (v : Bytes 64) : (s.setKs v).cmd = s.cmd := (rfl)
@[simp] theorem State.setKs_result (s : State) (v : Bytes 64) : (s.setKs v).result = s.result := (rfl)
@[simp] theorem State.setKs_faultLog (s : State) (v : Bytes 64) : (s.setKs v).faultLog = s.faultLog := (rfl)
@[simp] theorem State.setKs_blk (s : State) (v : Bytes 64) : (s.setKs v).blk = s.blk := (rfl)
@[simp] theorem State.setKs_rnd (s : State) (v : Bytes 64) : (s.setKs v).rnd = s.rnd := (rfl)
@[simp] theorem State.setKs_inMem (s : State) (v : Bytes 64) : (s.setKs v).inMem = s.inMem := (rfl)
@[simp] theorem State.setKs_outMem (s : State) (v : Bytes 64) : (s.setKs v).outMem = s.outMem := (rfl)
@[simp] theorem State.setKs_inputs (s : State) (v : Bytes 64) : (s.setKs v).inputs = s.inputs := (rfl)
@[simp] theorem State.setKs_reply (s : State) (v : Bytes 64) : (s.setKs v).reply = s.reply := (rfl)
@[simp] theorem State.setKs_draws (s : State) (v : Bytes 64) : (s.setKs v).draws = s.draws := (rfl)

/-! Fields after writing the context. -/

@[simp] theorem State.setContext_w (s : State) (k : Words 8) (n : Words 3) (c : Word) : (s.setContext k n c).w = s.w := (rfl)
@[simp] theorem State.setContext_s (s : State) (k : Words 8) (n : Words 3) (c : Word) : (s.setContext k n c).s = s.s := (rfl)
@[simp] theorem State.setContext_b (s : State) (k : Words 8) (n : Words 3) (c : Word) : (s.setContext k n c).b = s.b := (rfl)
@[simp] theorem State.setContext_ks (s : State) (k : Words 8) (n : Words 3) (c : Word) : (s.setContext k n c).ks = s.ks := (rfl)
@[simp] theorem State.setContext_k (s : State) (k : Words 8) (n : Words 3) (c : Word) : (s.setContext k n c).k = k := (rfl)
@[simp] theorem State.setContext_n (s : State) (k : Words 8) (n : Words 3) (c : Word) : (s.setContext k n c).n = n := (rfl)
@[simp] theorem State.setContext_ctr0 (s : State) (k : Words 8) (n : Words 3) (c : Word) : (s.setContext k n c).ctr0 = c := (rfl)
@[simp] theorem State.setContext_valid (s : State) (k : Words 8) (n : Words 3) (c : Word) : (s.setContext k n c).valid = true := (rfl)
@[simp] theorem State.setContext_keyBuf (s : State) (k : Words 8) (n : Words 3) (c : Word) : (s.setContext k n c).keyBuf = s.keyBuf := (rfl)
@[simp] theorem State.setContext_nonceBuf (s : State) (k : Words 8) (n : Words 3) (c : Word) : (s.setContext k n c).nonceBuf = s.nonceBuf := (rfl)
@[simp] theorem State.setContext_keyLen (s : State) (k : Words 8) (n : Words 3) (c : Word) : (s.setContext k n c).keyLen = s.keyLen := (rfl)
@[simp] theorem State.setContext_nonceLen (s : State) (k : Words 8) (n : Words 3) (c : Word) : (s.setContext k n c).nonceLen = s.nonceLen := (rfl)
@[simp] theorem State.setContext_ctrArg (s : State) (k : Words 8) (n : Words 3) (c : Word) : (s.setContext k n c).ctrArg = s.ctrArg := (rfl)
@[simp] theorem State.setContext_lenLo (s : State) (k : Words 8) (n : Words 3) (c : Word) : (s.setContext k n c).lenLo = s.lenLo := (rfl)
@[simp] theorem State.setContext_lenHi (s : State) (k : Words 8) (n : Words 3) (c : Word) : (s.setContext k n c).lenHi = s.lenHi := (rfl)
@[simp] theorem State.setContext_cmd (s : State) (k : Words 8) (n : Words 3) (c : Word) : (s.setContext k n c).cmd = s.cmd := (rfl)
@[simp] theorem State.setContext_result (s : State) (k : Words 8) (n : Words 3) (c : Word) : (s.setContext k n c).result = s.result := (rfl)
@[simp] theorem State.setContext_faultLog (s : State) (k : Words 8) (n : Words 3) (c : Word) : (s.setContext k n c).faultLog = s.faultLog := (rfl)
@[simp] theorem State.setContext_blk (s : State) (k : Words 8) (n : Words 3) (c : Word) : (s.setContext k n c).blk = s.blk := (rfl)
@[simp] theorem State.setContext_rnd (s : State) (k : Words 8) (n : Words 3) (c : Word) : (s.setContext k n c).rnd = s.rnd := (rfl)
@[simp] theorem State.setContext_inMem (s : State) (k : Words 8) (n : Words 3) (c : Word) : (s.setContext k n c).inMem = s.inMem := (rfl)
@[simp] theorem State.setContext_outMem (s : State) (k : Words 8) (n : Words 3) (c : Word) : (s.setContext k n c).outMem = s.outMem := (rfl)
@[simp] theorem State.setContext_inputs (s : State) (k : Words 8) (n : Words 3) (c : Word) : (s.setContext k n c).inputs = s.inputs := (rfl)
@[simp] theorem State.setContext_reply (s : State) (k : Words 8) (n : Words 3) (c : Word) : (s.setContext k n c).reply = s.reply := (rfl)
@[simp] theorem State.setContext_draws (s : State) (k : Words 8) (n : Words 3) (c : Word) : (s.setContext k n c).draws = s.draws := (rfl)

/-! Fields after clearing VALID. -/

@[simp] theorem State.invalidate_w (s : State) : s.invalidate.w = s.w := (rfl)
@[simp] theorem State.invalidate_s (s : State) : s.invalidate.s = s.s := (rfl)
@[simp] theorem State.invalidate_b (s : State) : s.invalidate.b = s.b := (rfl)
@[simp] theorem State.invalidate_ks (s : State) : s.invalidate.ks = s.ks := (rfl)
@[simp] theorem State.invalidate_k (s : State) : s.invalidate.k = s.k := (rfl)
@[simp] theorem State.invalidate_n (s : State) : s.invalidate.n = s.n := (rfl)
@[simp] theorem State.invalidate_ctr0 (s : State) : s.invalidate.ctr0 = s.ctr0 := (rfl)
@[simp] theorem State.invalidate_valid (s : State) : s.invalidate.valid = false := (rfl)
@[simp] theorem State.invalidate_keyBuf (s : State) : s.invalidate.keyBuf = s.keyBuf := (rfl)
@[simp] theorem State.invalidate_nonceBuf (s : State) : s.invalidate.nonceBuf = s.nonceBuf := (rfl)
@[simp] theorem State.invalidate_keyLen (s : State) : s.invalidate.keyLen = s.keyLen := (rfl)
@[simp] theorem State.invalidate_nonceLen (s : State) : s.invalidate.nonceLen = s.nonceLen := (rfl)
@[simp] theorem State.invalidate_ctrArg (s : State) : s.invalidate.ctrArg = s.ctrArg := (rfl)
@[simp] theorem State.invalidate_lenLo (s : State) : s.invalidate.lenLo = s.lenLo := (rfl)
@[simp] theorem State.invalidate_lenHi (s : State) : s.invalidate.lenHi = s.lenHi := (rfl)
@[simp] theorem State.invalidate_cmd (s : State) : s.invalidate.cmd = s.cmd := (rfl)
@[simp] theorem State.invalidate_result (s : State) : s.invalidate.result = s.result := (rfl)
@[simp] theorem State.invalidate_faultLog (s : State) : s.invalidate.faultLog = s.faultLog := (rfl)
@[simp] theorem State.invalidate_blk (s : State) : s.invalidate.blk = s.blk := (rfl)
@[simp] theorem State.invalidate_rnd (s : State) : s.invalidate.rnd = s.rnd := (rfl)
@[simp] theorem State.invalidate_inMem (s : State) : s.invalidate.inMem = s.inMem := (rfl)
@[simp] theorem State.invalidate_outMem (s : State) : s.invalidate.outMem = s.outMem := (rfl)
@[simp] theorem State.invalidate_inputs (s : State) : s.invalidate.inputs = s.inputs := (rfl)
@[simp] theorem State.invalidate_reply (s : State) : s.invalidate.reply = s.reply := (rfl)
@[simp] theorem State.invalidate_draws (s : State) : s.invalidate.draws = s.draws := (rfl)

/-! Fields after writing IN. -/

@[simp] theorem State.setIn_w (s : State) (m : Memory) : (s.setIn m).w = s.w := (rfl)
@[simp] theorem State.setIn_s (s : State) (m : Memory) : (s.setIn m).s = s.s := (rfl)
@[simp] theorem State.setIn_b (s : State) (m : Memory) : (s.setIn m).b = s.b := (rfl)
@[simp] theorem State.setIn_ks (s : State) (m : Memory) : (s.setIn m).ks = s.ks := (rfl)
@[simp] theorem State.setIn_k (s : State) (m : Memory) : (s.setIn m).k = s.k := (rfl)
@[simp] theorem State.setIn_n (s : State) (m : Memory) : (s.setIn m).n = s.n := (rfl)
@[simp] theorem State.setIn_ctr0 (s : State) (m : Memory) : (s.setIn m).ctr0 = s.ctr0 := (rfl)
@[simp] theorem State.setIn_valid (s : State) (m : Memory) : (s.setIn m).valid = s.valid := (rfl)
@[simp] theorem State.setIn_keyBuf (s : State) (m : Memory) : (s.setIn m).keyBuf = s.keyBuf := (rfl)
@[simp] theorem State.setIn_nonceBuf (s : State) (m : Memory) : (s.setIn m).nonceBuf = s.nonceBuf := (rfl)
@[simp] theorem State.setIn_keyLen (s : State) (m : Memory) : (s.setIn m).keyLen = s.keyLen := (rfl)
@[simp] theorem State.setIn_nonceLen (s : State) (m : Memory) : (s.setIn m).nonceLen = s.nonceLen := (rfl)
@[simp] theorem State.setIn_ctrArg (s : State) (m : Memory) : (s.setIn m).ctrArg = s.ctrArg := (rfl)
@[simp] theorem State.setIn_lenLo (s : State) (m : Memory) : (s.setIn m).lenLo = s.lenLo := (rfl)
@[simp] theorem State.setIn_lenHi (s : State) (m : Memory) : (s.setIn m).lenHi = s.lenHi := (rfl)
@[simp] theorem State.setIn_cmd (s : State) (m : Memory) : (s.setIn m).cmd = s.cmd := (rfl)
@[simp] theorem State.setIn_result (s : State) (m : Memory) : (s.setIn m).result = s.result := (rfl)
@[simp] theorem State.setIn_faultLog (s : State) (m : Memory) : (s.setIn m).faultLog = s.faultLog := (rfl)
@[simp] theorem State.setIn_blk (s : State) (m : Memory) : (s.setIn m).blk = s.blk := (rfl)
@[simp] theorem State.setIn_rnd (s : State) (m : Memory) : (s.setIn m).rnd = s.rnd := (rfl)
@[simp] theorem State.setIn_inMem (s : State) (m : Memory) : (s.setIn m).inMem = m := (rfl)
@[simp] theorem State.setIn_outMem (s : State) (m : Memory) : (s.setIn m).outMem = s.outMem := (rfl)
@[simp] theorem State.setIn_inputs (s : State) (m : Memory) : (s.setIn m).inputs = s.inputs := (rfl)
@[simp] theorem State.setIn_reply (s : State) (m : Memory) : (s.setIn m).reply = s.reply := (rfl)
@[simp] theorem State.setIn_draws (s : State) (m : Memory) : (s.setIn m).draws = s.draws := (rfl)

/-! Fields after writing OUT. -/

@[simp] theorem State.setOut_w (s : State) (m : Memory) : (s.setOut m).w = s.w := (rfl)
@[simp] theorem State.setOut_s (s : State) (m : Memory) : (s.setOut m).s = s.s := (rfl)
@[simp] theorem State.setOut_b (s : State) (m : Memory) : (s.setOut m).b = s.b := (rfl)
@[simp] theorem State.setOut_ks (s : State) (m : Memory) : (s.setOut m).ks = s.ks := (rfl)
@[simp] theorem State.setOut_k (s : State) (m : Memory) : (s.setOut m).k = s.k := (rfl)
@[simp] theorem State.setOut_n (s : State) (m : Memory) : (s.setOut m).n = s.n := (rfl)
@[simp] theorem State.setOut_ctr0 (s : State) (m : Memory) : (s.setOut m).ctr0 = s.ctr0 := (rfl)
@[simp] theorem State.setOut_valid (s : State) (m : Memory) : (s.setOut m).valid = s.valid := (rfl)
@[simp] theorem State.setOut_keyBuf (s : State) (m : Memory) : (s.setOut m).keyBuf = s.keyBuf := (rfl)
@[simp] theorem State.setOut_nonceBuf (s : State) (m : Memory) : (s.setOut m).nonceBuf = s.nonceBuf := (rfl)
@[simp] theorem State.setOut_keyLen (s : State) (m : Memory) : (s.setOut m).keyLen = s.keyLen := (rfl)
@[simp] theorem State.setOut_nonceLen (s : State) (m : Memory) : (s.setOut m).nonceLen = s.nonceLen := (rfl)
@[simp] theorem State.setOut_ctrArg (s : State) (m : Memory) : (s.setOut m).ctrArg = s.ctrArg := (rfl)
@[simp] theorem State.setOut_lenLo (s : State) (m : Memory) : (s.setOut m).lenLo = s.lenLo := (rfl)
@[simp] theorem State.setOut_lenHi (s : State) (m : Memory) : (s.setOut m).lenHi = s.lenHi := (rfl)
@[simp] theorem State.setOut_cmd (s : State) (m : Memory) : (s.setOut m).cmd = s.cmd := (rfl)
@[simp] theorem State.setOut_result (s : State) (m : Memory) : (s.setOut m).result = s.result := (rfl)
@[simp] theorem State.setOut_faultLog (s : State) (m : Memory) : (s.setOut m).faultLog = s.faultLog := (rfl)
@[simp] theorem State.setOut_blk (s : State) (m : Memory) : (s.setOut m).blk = s.blk := (rfl)
@[simp] theorem State.setOut_rnd (s : State) (m : Memory) : (s.setOut m).rnd = s.rnd := (rfl)
@[simp] theorem State.setOut_inMem (s : State) (m : Memory) : (s.setOut m).inMem = s.inMem := (rfl)
@[simp] theorem State.setOut_outMem (s : State) (m : Memory) : (s.setOut m).outMem = m := (rfl)
@[simp] theorem State.setOut_inputs (s : State) (m : Memory) : (s.setOut m).inputs = s.inputs := (rfl)
@[simp] theorem State.setOut_reply (s : State) (m : Memory) : (s.setOut m).reply = s.reply := (rfl)
@[simp] theorem State.setOut_draws (s : State) (m : Memory) : (s.setOut m).draws = s.draws := (rfl)

/-! Fields after writing BLK. -/

@[simp] theorem State.setBlk_w (s : State) (v : Word) : (s.setBlk v).w = s.w := (rfl)
@[simp] theorem State.setBlk_s (s : State) (v : Word) : (s.setBlk v).s = s.s := (rfl)
@[simp] theorem State.setBlk_b (s : State) (v : Word) : (s.setBlk v).b = s.b := (rfl)
@[simp] theorem State.setBlk_ks (s : State) (v : Word) : (s.setBlk v).ks = s.ks := (rfl)
@[simp] theorem State.setBlk_k (s : State) (v : Word) : (s.setBlk v).k = s.k := (rfl)
@[simp] theorem State.setBlk_n (s : State) (v : Word) : (s.setBlk v).n = s.n := (rfl)
@[simp] theorem State.setBlk_ctr0 (s : State) (v : Word) : (s.setBlk v).ctr0 = s.ctr0 := (rfl)
@[simp] theorem State.setBlk_valid (s : State) (v : Word) : (s.setBlk v).valid = s.valid := (rfl)
@[simp] theorem State.setBlk_keyBuf (s : State) (v : Word) : (s.setBlk v).keyBuf = s.keyBuf := (rfl)
@[simp] theorem State.setBlk_nonceBuf (s : State) (v : Word) : (s.setBlk v).nonceBuf = s.nonceBuf := (rfl)
@[simp] theorem State.setBlk_keyLen (s : State) (v : Word) : (s.setBlk v).keyLen = s.keyLen := (rfl)
@[simp] theorem State.setBlk_nonceLen (s : State) (v : Word) : (s.setBlk v).nonceLen = s.nonceLen := (rfl)
@[simp] theorem State.setBlk_ctrArg (s : State) (v : Word) : (s.setBlk v).ctrArg = s.ctrArg := (rfl)
@[simp] theorem State.setBlk_lenLo (s : State) (v : Word) : (s.setBlk v).lenLo = s.lenLo := (rfl)
@[simp] theorem State.setBlk_lenHi (s : State) (v : Word) : (s.setBlk v).lenHi = s.lenHi := (rfl)
@[simp] theorem State.setBlk_cmd (s : State) (v : Word) : (s.setBlk v).cmd = s.cmd := (rfl)
@[simp] theorem State.setBlk_result (s : State) (v : Word) : (s.setBlk v).result = s.result := (rfl)
@[simp] theorem State.setBlk_faultLog (s : State) (v : Word) : (s.setBlk v).faultLog = s.faultLog := (rfl)
@[simp] theorem State.setBlk_blk (s : State) (v : Word) : (s.setBlk v).blk = v := (rfl)
@[simp] theorem State.setBlk_rnd (s : State) (v : Word) : (s.setBlk v).rnd = s.rnd := (rfl)
@[simp] theorem State.setBlk_inMem (s : State) (v : Word) : (s.setBlk v).inMem = s.inMem := (rfl)
@[simp] theorem State.setBlk_outMem (s : State) (v : Word) : (s.setBlk v).outMem = s.outMem := (rfl)
@[simp] theorem State.setBlk_inputs (s : State) (v : Word) : (s.setBlk v).inputs = s.inputs := (rfl)
@[simp] theorem State.setBlk_reply (s : State) (v : Word) : (s.setBlk v).reply = s.reply := (rfl)
@[simp] theorem State.setBlk_draws (s : State) (v : Word) : (s.setBlk v).draws = s.draws := (rfl)

/-! Fields after writing RND. -/

@[simp] theorem State.setRnd_w (s : State) (v : BitVec 4) : (s.setRnd v).w = s.w := (rfl)
@[simp] theorem State.setRnd_s (s : State) (v : BitVec 4) : (s.setRnd v).s = s.s := (rfl)
@[simp] theorem State.setRnd_b (s : State) (v : BitVec 4) : (s.setRnd v).b = s.b := (rfl)
@[simp] theorem State.setRnd_ks (s : State) (v : BitVec 4) : (s.setRnd v).ks = s.ks := (rfl)
@[simp] theorem State.setRnd_k (s : State) (v : BitVec 4) : (s.setRnd v).k = s.k := (rfl)
@[simp] theorem State.setRnd_n (s : State) (v : BitVec 4) : (s.setRnd v).n = s.n := (rfl)
@[simp] theorem State.setRnd_ctr0 (s : State) (v : BitVec 4) : (s.setRnd v).ctr0 = s.ctr0 := (rfl)
@[simp] theorem State.setRnd_valid (s : State) (v : BitVec 4) : (s.setRnd v).valid = s.valid := (rfl)
@[simp] theorem State.setRnd_keyBuf (s : State) (v : BitVec 4) : (s.setRnd v).keyBuf = s.keyBuf := (rfl)
@[simp] theorem State.setRnd_nonceBuf (s : State) (v : BitVec 4) : (s.setRnd v).nonceBuf = s.nonceBuf := (rfl)
@[simp] theorem State.setRnd_keyLen (s : State) (v : BitVec 4) : (s.setRnd v).keyLen = s.keyLen := (rfl)
@[simp] theorem State.setRnd_nonceLen (s : State) (v : BitVec 4) : (s.setRnd v).nonceLen = s.nonceLen := (rfl)
@[simp] theorem State.setRnd_ctrArg (s : State) (v : BitVec 4) : (s.setRnd v).ctrArg = s.ctrArg := (rfl)
@[simp] theorem State.setRnd_lenLo (s : State) (v : BitVec 4) : (s.setRnd v).lenLo = s.lenLo := (rfl)
@[simp] theorem State.setRnd_lenHi (s : State) (v : BitVec 4) : (s.setRnd v).lenHi = s.lenHi := (rfl)
@[simp] theorem State.setRnd_cmd (s : State) (v : BitVec 4) : (s.setRnd v).cmd = s.cmd := (rfl)
@[simp] theorem State.setRnd_result (s : State) (v : BitVec 4) : (s.setRnd v).result = s.result := (rfl)
@[simp] theorem State.setRnd_faultLog (s : State) (v : BitVec 4) : (s.setRnd v).faultLog = s.faultLog := (rfl)
@[simp] theorem State.setRnd_blk (s : State) (v : BitVec 4) : (s.setRnd v).blk = s.blk := (rfl)
@[simp] theorem State.setRnd_rnd (s : State) (v : BitVec 4) : (s.setRnd v).rnd = v := (rfl)
@[simp] theorem State.setRnd_inMem (s : State) (v : BitVec 4) : (s.setRnd v).inMem = s.inMem := (rfl)
@[simp] theorem State.setRnd_outMem (s : State) (v : BitVec 4) : (s.setRnd v).outMem = s.outMem := (rfl)
@[simp] theorem State.setRnd_inputs (s : State) (v : BitVec 4) : (s.setRnd v).inputs = s.inputs := (rfl)
@[simp] theorem State.setRnd_reply (s : State) (v : BitVec 4) : (s.setRnd v).reply = s.reply := (rfl)
@[simp] theorem State.setRnd_draws (s : State) (v : BitVec 4) : (s.setRnd v).draws = s.draws := (rfl)

/-! Fields after the end of a command. -/

@[simp] theorem State.finish_w (s : State) (c : BitVec 4) : (s.finish c).w = s.w := (rfl)
@[simp] theorem State.finish_s (s : State) (c : BitVec 4) : (s.finish c).s = s.s := (rfl)
@[simp] theorem State.finish_b (s : State) (c : BitVec 4) : (s.finish c).b = s.b := (rfl)
@[simp] theorem State.finish_ks (s : State) (c : BitVec 4) : (s.finish c).ks = s.ks := (rfl)
@[simp] theorem State.finish_k (s : State) (c : BitVec 4) : (s.finish c).k = s.k := (rfl)
@[simp] theorem State.finish_n (s : State) (c : BitVec 4) : (s.finish c).n = s.n := (rfl)
@[simp] theorem State.finish_ctr0 (s : State) (c : BitVec 4) : (s.finish c).ctr0 = s.ctr0 := (rfl)
@[simp] theorem State.finish_valid (s : State) (c : BitVec 4) : (s.finish c).valid = s.valid := (rfl)
@[simp] theorem State.finish_keyBuf (s : State) (c : BitVec 4) : (s.finish c).keyBuf = s.keyBuf := (rfl)
@[simp] theorem State.finish_nonceBuf (s : State) (c : BitVec 4) : (s.finish c).nonceBuf = s.nonceBuf := (rfl)
@[simp] theorem State.finish_keyLen (s : State) (c : BitVec 4) : (s.finish c).keyLen = s.keyLen := (rfl)
@[simp] theorem State.finish_nonceLen (s : State) (c : BitVec 4) : (s.finish c).nonceLen = s.nonceLen := (rfl)
@[simp] theorem State.finish_ctrArg (s : State) (c : BitVec 4) : (s.finish c).ctrArg = s.ctrArg := (rfl)
@[simp] theorem State.finish_lenLo (s : State) (c : BitVec 4) : (s.finish c).lenLo = s.lenLo := (rfl)
@[simp] theorem State.finish_lenHi (s : State) (c : BitVec 4) : (s.finish c).lenHi = s.lenHi := (rfl)
@[simp] theorem State.finish_cmd (s : State) (c : BitVec 4) : (s.finish c).cmd = none := (rfl)
@[simp] theorem State.finish_result (s : State) (c : BitVec 4) : (s.finish c).result = c := (rfl)
@[simp] theorem State.finish_faultLog (s : State) (c : BitVec 4) : (s.finish c).faultLog = s.faultLog := (rfl)
@[simp] theorem State.finish_blk (s : State) (c : BitVec 4) : (s.finish c).blk = 0 := (rfl)
@[simp] theorem State.finish_rnd (s : State) (c : BitVec 4) : (s.finish c).rnd = 0 := (rfl)
@[simp] theorem State.finish_inMem (s : State) (c : BitVec 4) : (s.finish c).inMem = s.inMem := (rfl)
@[simp] theorem State.finish_outMem (s : State) (c : BitVec 4) : (s.finish c).outMem = s.outMem := (rfl)
@[simp] theorem State.finish_inputs (s : State) (c : BitVec 4) : (s.finish c).inputs = s.inputs := (rfl)
@[simp] theorem State.finish_reply (s : State) (c : BitVec 4) : (s.finish c).reply = s.reply := (rfl)
@[simp] theorem State.finish_draws (s : State) (c : BitVec 4) : (s.finish c).draws = s.draws := (rfl)

/-! Fields after logging an error. -/

@[simp] theorem State.logError_w (s : State) (e : CmdError) : (s.logError e).w = s.w := (rfl)
@[simp] theorem State.logError_s (s : State) (e : CmdError) : (s.logError e).s = s.s := (rfl)
@[simp] theorem State.logError_b (s : State) (e : CmdError) : (s.logError e).b = s.b := (rfl)
@[simp] theorem State.logError_ks (s : State) (e : CmdError) : (s.logError e).ks = s.ks := (rfl)
@[simp] theorem State.logError_k (s : State) (e : CmdError) : (s.logError e).k = s.k := (rfl)
@[simp] theorem State.logError_n (s : State) (e : CmdError) : (s.logError e).n = s.n := (rfl)
@[simp] theorem State.logError_ctr0 (s : State) (e : CmdError) : (s.logError e).ctr0 = s.ctr0 := (rfl)
@[simp] theorem State.logError_valid (s : State) (e : CmdError) : (s.logError e).valid = s.valid := (rfl)
@[simp] theorem State.logError_keyBuf (s : State) (e : CmdError) : (s.logError e).keyBuf = s.keyBuf := (rfl)
@[simp] theorem State.logError_nonceBuf (s : State) (e : CmdError) : (s.logError e).nonceBuf = s.nonceBuf := (rfl)
@[simp] theorem State.logError_keyLen (s : State) (e : CmdError) : (s.logError e).keyLen = s.keyLen := (rfl)
@[simp] theorem State.logError_nonceLen (s : State) (e : CmdError) : (s.logError e).nonceLen = s.nonceLen := (rfl)
@[simp] theorem State.logError_ctrArg (s : State) (e : CmdError) : (s.logError e).ctrArg = s.ctrArg := (rfl)
@[simp] theorem State.logError_lenLo (s : State) (e : CmdError) : (s.logError e).lenLo = s.lenLo := (rfl)
@[simp] theorem State.logError_lenHi (s : State) (e : CmdError) : (s.logError e).lenHi = s.lenHi := (rfl)
@[simp] theorem State.logError_cmd (s : State) (e : CmdError) : (s.logError e).cmd = s.cmd := (rfl)
@[simp] theorem State.logError_result (s : State) (e : CmdError) : (s.logError e).result = s.result := (rfl)
@[simp] theorem State.logError_faultLog (s : State) (e : CmdError) : (s.logError e).faultLog = s.faultLog ||| e.bit := (rfl)
@[simp] theorem State.logError_blk (s : State) (e : CmdError) : (s.logError e).blk = s.blk := (rfl)
@[simp] theorem State.logError_rnd (s : State) (e : CmdError) : (s.logError e).rnd = s.rnd := (rfl)
@[simp] theorem State.logError_inMem (s : State) (e : CmdError) : (s.logError e).inMem = s.inMem := (rfl)
@[simp] theorem State.logError_outMem (s : State) (e : CmdError) : (s.logError e).outMem = s.outMem := (rfl)
@[simp] theorem State.logError_inputs (s : State) (e : CmdError) : (s.logError e).inputs = s.inputs := (rfl)
@[simp] theorem State.logError_reply (s : State) (e : CmdError) : (s.logError e).reply = s.reply := (rfl)
@[simp] theorem State.logError_draws (s : State) (e : CmdError) : (s.logError e).draws = s.draws := (rfl)

/-! Fields after `raise`. -/

@[simp] theorem State.raise_w (s : State) (e : CmdError) : (s.raise e).w = s.w := (rfl)
@[simp] theorem State.raise_s (s : State) (e : CmdError) : (s.raise e).s = s.s := (rfl)
@[simp] theorem State.raise_b (s : State) (e : CmdError) : (s.raise e).b = s.b := (rfl)
@[simp] theorem State.raise_ks (s : State) (e : CmdError) : (s.raise e).ks = s.ks := (rfl)
@[simp] theorem State.raise_k (s : State) (e : CmdError) : (s.raise e).k = s.k := (rfl)
@[simp] theorem State.raise_n (s : State) (e : CmdError) : (s.raise e).n = s.n := (rfl)
@[simp] theorem State.raise_ctr0 (s : State) (e : CmdError) : (s.raise e).ctr0 = s.ctr0 := (rfl)
@[simp] theorem State.raise_valid (s : State) (e : CmdError) : (s.raise e).valid = s.valid := (rfl)
@[simp] theorem State.raise_keyBuf (s : State) (e : CmdError) : (s.raise e).keyBuf = s.keyBuf := (rfl)
@[simp] theorem State.raise_nonceBuf (s : State) (e : CmdError) : (s.raise e).nonceBuf = s.nonceBuf := (rfl)
@[simp] theorem State.raise_keyLen (s : State) (e : CmdError) : (s.raise e).keyLen = s.keyLen := (rfl)
@[simp] theorem State.raise_nonceLen (s : State) (e : CmdError) : (s.raise e).nonceLen = s.nonceLen := (rfl)
@[simp] theorem State.raise_ctrArg (s : State) (e : CmdError) : (s.raise e).ctrArg = s.ctrArg := (rfl)
@[simp] theorem State.raise_lenLo (s : State) (e : CmdError) : (s.raise e).lenLo = s.lenLo := (rfl)
@[simp] theorem State.raise_lenHi (s : State) (e : CmdError) : (s.raise e).lenHi = s.lenHi := (rfl)
@[simp] theorem State.raise_cmd (s : State) (e : CmdError) : (s.raise e).cmd = none := (rfl)
@[simp] theorem State.raise_result (s : State) (e : CmdError) : (s.raise e).result = e.code := (rfl)
@[simp] theorem State.raise_faultLog (s : State) (e : CmdError) : (s.raise e).faultLog = s.faultLog ||| e.bit := (rfl)
@[simp] theorem State.raise_blk (s : State) (e : CmdError) : (s.raise e).blk = 0 := (rfl)
@[simp] theorem State.raise_rnd (s : State) (e : CmdError) : (s.raise e).rnd = 0 := (rfl)
@[simp] theorem State.raise_inMem (s : State) (e : CmdError) : (s.raise e).inMem = s.inMem := (rfl)
@[simp] theorem State.raise_outMem (s : State) (e : CmdError) : (s.raise e).outMem = s.outMem := (rfl)
@[simp] theorem State.raise_inputs (s : State) (e : CmdError) : (s.raise e).inputs = s.inputs := (rfl)
@[simp] theorem State.raise_reply (s : State) (e : CmdError) : (s.raise e).reply = s.reply := (rfl)
@[simp] theorem State.raise_draws (s : State) (e : CmdError) : (s.raise e).draws = s.draws := (rfl)

/-! Fields after answering a host read. -/

@[simp] theorem State.answer_w (s : State) (r : Reply) (m : Nat) : (s.answer r m).w = s.w := (rfl)
@[simp] theorem State.answer_s (s : State) (r : Reply) (m : Nat) : (s.answer r m).s = s.s := (rfl)
@[simp] theorem State.answer_b (s : State) (r : Reply) (m : Nat) : (s.answer r m).b = s.b := (rfl)
@[simp] theorem State.answer_ks (s : State) (r : Reply) (m : Nat) : (s.answer r m).ks = s.ks := (rfl)
@[simp] theorem State.answer_k (s : State) (r : Reply) (m : Nat) : (s.answer r m).k = s.k := (rfl)
@[simp] theorem State.answer_n (s : State) (r : Reply) (m : Nat) : (s.answer r m).n = s.n := (rfl)
@[simp] theorem State.answer_ctr0 (s : State) (r : Reply) (m : Nat) : (s.answer r m).ctr0 = s.ctr0 := (rfl)
@[simp] theorem State.answer_valid (s : State) (r : Reply) (m : Nat) : (s.answer r m).valid = s.valid := (rfl)
@[simp] theorem State.answer_keyBuf (s : State) (r : Reply) (m : Nat) : (s.answer r m).keyBuf = s.keyBuf := (rfl)
@[simp] theorem State.answer_nonceBuf (s : State) (r : Reply) (m : Nat) : (s.answer r m).nonceBuf = s.nonceBuf := (rfl)
@[simp] theorem State.answer_keyLen (s : State) (r : Reply) (m : Nat) : (s.answer r m).keyLen = s.keyLen := (rfl)
@[simp] theorem State.answer_nonceLen (s : State) (r : Reply) (m : Nat) : (s.answer r m).nonceLen = s.nonceLen := (rfl)
@[simp] theorem State.answer_ctrArg (s : State) (r : Reply) (m : Nat) : (s.answer r m).ctrArg = s.ctrArg := (rfl)
@[simp] theorem State.answer_lenLo (s : State) (r : Reply) (m : Nat) : (s.answer r m).lenLo = s.lenLo := (rfl)
@[simp] theorem State.answer_lenHi (s : State) (r : Reply) (m : Nat) : (s.answer r m).lenHi = s.lenHi := (rfl)
@[simp] theorem State.answer_cmd (s : State) (r : Reply) (m : Nat) : (s.answer r m).cmd = s.cmd := (rfl)
@[simp] theorem State.answer_result (s : State) (r : Reply) (m : Nat) : (s.answer r m).result = s.result := (rfl)
@[simp] theorem State.answer_faultLog (s : State) (r : Reply) (m : Nat) : (s.answer r m).faultLog = s.faultLog := (rfl)
@[simp] theorem State.answer_blk (s : State) (r : Reply) (m : Nat) : (s.answer r m).blk = s.blk := (rfl)
@[simp] theorem State.answer_rnd (s : State) (r : Reply) (m : Nat) : (s.answer r m).rnd = s.rnd := (rfl)
@[simp] theorem State.answer_inMem (s : State) (r : Reply) (m : Nat) : (s.answer r m).inMem = s.inMem := (rfl)
@[simp] theorem State.answer_outMem (s : State) (r : Reply) (m : Nat) : (s.answer r m).outMem = s.outMem := (rfl)
@[simp] theorem State.answer_inputs (s : State) (r : Reply) (m : Nat) : (s.answer r m).inputs = s.inputs := (rfl)
@[simp] theorem State.answer_reply (s : State) (r : Reply) (m : Nat) : (s.answer r m).reply = some r := (rfl)
@[simp] theorem State.answer_draws (s : State) (r : Reply) (m : Nat) : (s.answer r m).draws = s.draws + m := (rfl)

/-! Fields after taking the next input. -/

@[simp] theorem State.takeInput_w (s : State) (rest : List Input) : (s.takeInput rest).w = s.w := (rfl)
@[simp] theorem State.takeInput_s (s : State) (rest : List Input) : (s.takeInput rest).s = s.s := (rfl)
@[simp] theorem State.takeInput_b (s : State) (rest : List Input) : (s.takeInput rest).b = s.b := (rfl)
@[simp] theorem State.takeInput_ks (s : State) (rest : List Input) : (s.takeInput rest).ks = s.ks := (rfl)
@[simp] theorem State.takeInput_k (s : State) (rest : List Input) : (s.takeInput rest).k = s.k := (rfl)
@[simp] theorem State.takeInput_n (s : State) (rest : List Input) : (s.takeInput rest).n = s.n := (rfl)
@[simp] theorem State.takeInput_ctr0 (s : State) (rest : List Input) : (s.takeInput rest).ctr0 = s.ctr0 := (rfl)
@[simp] theorem State.takeInput_valid (s : State) (rest : List Input) : (s.takeInput rest).valid = s.valid := (rfl)
@[simp] theorem State.takeInput_keyBuf (s : State) (rest : List Input) : (s.takeInput rest).keyBuf = s.keyBuf := (rfl)
@[simp] theorem State.takeInput_nonceBuf (s : State) (rest : List Input) : (s.takeInput rest).nonceBuf = s.nonceBuf := (rfl)
@[simp] theorem State.takeInput_keyLen (s : State) (rest : List Input) : (s.takeInput rest).keyLen = s.keyLen := (rfl)
@[simp] theorem State.takeInput_nonceLen (s : State) (rest : List Input) : (s.takeInput rest).nonceLen = s.nonceLen := (rfl)
@[simp] theorem State.takeInput_ctrArg (s : State) (rest : List Input) : (s.takeInput rest).ctrArg = s.ctrArg := (rfl)
@[simp] theorem State.takeInput_lenLo (s : State) (rest : List Input) : (s.takeInput rest).lenLo = s.lenLo := (rfl)
@[simp] theorem State.takeInput_lenHi (s : State) (rest : List Input) : (s.takeInput rest).lenHi = s.lenHi := (rfl)
@[simp] theorem State.takeInput_cmd (s : State) (rest : List Input) : (s.takeInput rest).cmd = s.cmd := (rfl)
@[simp] theorem State.takeInput_result (s : State) (rest : List Input) : (s.takeInput rest).result = s.result := (rfl)
@[simp] theorem State.takeInput_faultLog (s : State) (rest : List Input) : (s.takeInput rest).faultLog = s.faultLog := (rfl)
@[simp] theorem State.takeInput_blk (s : State) (rest : List Input) : (s.takeInput rest).blk = s.blk := (rfl)
@[simp] theorem State.takeInput_rnd (s : State) (rest : List Input) : (s.takeInput rest).rnd = s.rnd := (rfl)
@[simp] theorem State.takeInput_inMem (s : State) (rest : List Input) : (s.takeInput rest).inMem = s.inMem := (rfl)
@[simp] theorem State.takeInput_outMem (s : State) (rest : List Input) : (s.takeInput rest).outMem = s.outMem := (rfl)
@[simp] theorem State.takeInput_inputs (s : State) (rest : List Input) : (s.takeInput rest).inputs = rest := (rfl)
@[simp] theorem State.takeInput_reply (s : State) (rest : List Input) : (s.takeInput rest).reply = none := (rfl)
@[simp] theorem State.takeInput_draws (s : State) (rest : List Input) : (s.takeInput rest).draws = s.draws := (rfl)

/-! Fields after drawing a free value. -/

@[simp] theorem State.drawOne_w (s : State) : s.drawOne.w = s.w := (rfl)
@[simp] theorem State.drawOne_s (s : State) : s.drawOne.s = s.s := (rfl)
@[simp] theorem State.drawOne_b (s : State) : s.drawOne.b = s.b := (rfl)
@[simp] theorem State.drawOne_ks (s : State) : s.drawOne.ks = s.ks := (rfl)
@[simp] theorem State.drawOne_k (s : State) : s.drawOne.k = s.k := (rfl)
@[simp] theorem State.drawOne_n (s : State) : s.drawOne.n = s.n := (rfl)
@[simp] theorem State.drawOne_ctr0 (s : State) : s.drawOne.ctr0 = s.ctr0 := (rfl)
@[simp] theorem State.drawOne_valid (s : State) : s.drawOne.valid = s.valid := (rfl)
@[simp] theorem State.drawOne_keyBuf (s : State) : s.drawOne.keyBuf = s.keyBuf := (rfl)
@[simp] theorem State.drawOne_nonceBuf (s : State) : s.drawOne.nonceBuf = s.nonceBuf := (rfl)
@[simp] theorem State.drawOne_keyLen (s : State) : s.drawOne.keyLen = s.keyLen := (rfl)
@[simp] theorem State.drawOne_nonceLen (s : State) : s.drawOne.nonceLen = s.nonceLen := (rfl)
@[simp] theorem State.drawOne_ctrArg (s : State) : s.drawOne.ctrArg = s.ctrArg := (rfl)
@[simp] theorem State.drawOne_lenLo (s : State) : s.drawOne.lenLo = s.lenLo := (rfl)
@[simp] theorem State.drawOne_lenHi (s : State) : s.drawOne.lenHi = s.lenHi := (rfl)
@[simp] theorem State.drawOne_cmd (s : State) : s.drawOne.cmd = s.cmd := (rfl)
@[simp] theorem State.drawOne_result (s : State) : s.drawOne.result = s.result := (rfl)
@[simp] theorem State.drawOne_faultLog (s : State) : s.drawOne.faultLog = s.faultLog := (rfl)
@[simp] theorem State.drawOne_blk (s : State) : s.drawOne.blk = s.blk := (rfl)
@[simp] theorem State.drawOne_rnd (s : State) : s.drawOne.rnd = s.rnd := (rfl)
@[simp] theorem State.drawOne_inMem (s : State) : s.drawOne.inMem = s.inMem := (rfl)
@[simp] theorem State.drawOne_outMem (s : State) : s.drawOne.outMem = s.outMem := (rfl)
@[simp] theorem State.drawOne_inputs (s : State) : s.drawOne.inputs = s.inputs := (rfl)
@[simp] theorem State.drawOne_reply (s : State) : s.drawOne.reply = s.reply := (rfl)
@[simp] theorem State.drawOne_draws (s : State) : s.drawOne.draws = s.draws + 1 := (rfl)

/-! Fields after reset. -/

@[simp] theorem State.resetCore_w (s : State) : s.resetCore.w = State.reset.w := (rfl)
@[simp] theorem State.resetCore_s (s : State) : s.resetCore.s = State.reset.s := (rfl)
@[simp] theorem State.resetCore_b (s : State) : s.resetCore.b = State.reset.b := (rfl)
@[simp] theorem State.resetCore_ks (s : State) : s.resetCore.ks = State.reset.ks := (rfl)
@[simp] theorem State.resetCore_k (s : State) : s.resetCore.k = State.reset.k := (rfl)
@[simp] theorem State.resetCore_n (s : State) : s.resetCore.n = State.reset.n := (rfl)
@[simp] theorem State.resetCore_ctr0 (s : State) : s.resetCore.ctr0 = State.reset.ctr0 := (rfl)
@[simp] theorem State.resetCore_valid (s : State) : s.resetCore.valid = State.reset.valid := (rfl)
@[simp] theorem State.resetCore_keyBuf (s : State) : s.resetCore.keyBuf = State.reset.keyBuf := (rfl)
@[simp] theorem State.resetCore_nonceBuf (s : State) : s.resetCore.nonceBuf = State.reset.nonceBuf := (rfl)
@[simp] theorem State.resetCore_keyLen (s : State) : s.resetCore.keyLen = State.reset.keyLen := (rfl)
@[simp] theorem State.resetCore_nonceLen (s : State) : s.resetCore.nonceLen = State.reset.nonceLen := (rfl)
@[simp] theorem State.resetCore_ctrArg (s : State) : s.resetCore.ctrArg = State.reset.ctrArg := (rfl)
@[simp] theorem State.resetCore_lenLo (s : State) : s.resetCore.lenLo = State.reset.lenLo := (rfl)
@[simp] theorem State.resetCore_lenHi (s : State) : s.resetCore.lenHi = State.reset.lenHi := (rfl)
@[simp] theorem State.resetCore_cmd (s : State) : s.resetCore.cmd = State.reset.cmd := (rfl)
@[simp] theorem State.resetCore_result (s : State) : s.resetCore.result = State.reset.result := (rfl)
@[simp] theorem State.resetCore_faultLog (s : State) : s.resetCore.faultLog = State.reset.faultLog := (rfl)
@[simp] theorem State.resetCore_blk (s : State) : s.resetCore.blk = State.reset.blk := (rfl)
@[simp] theorem State.resetCore_rnd (s : State) : s.resetCore.rnd = State.reset.rnd := (rfl)
@[simp] theorem State.resetCore_inMem (s : State) : s.resetCore.inMem = s.inMem := (rfl)
@[simp] theorem State.resetCore_outMem (s : State) : s.resetCore.outMem = s.outMem := (rfl)
@[simp] theorem State.resetCore_inputs (s : State) : s.resetCore.inputs = s.inputs := (rfl)
@[simp] theorem State.resetCore_reply (s : State) : s.resetCore.reply = State.reset.reply := (rfl)
@[simp] theorem State.resetCore_draws (s : State) : s.resetCore.draws = s.draws := (rfl)

end Sys2Proof.Machine
end

