-- ==== Sys2Proof/Laws/Commands.lean ====
section
/-! SUPPORT. What each shared operation of the commands does, said once: the transform, the Serializer, the Combiner, one block
and all blocks of CIPHER, the execution of a command, and a step. -/

namespace Sys2Proof.Machine

/-- `n` double rounds change W and RND alone (R69). -/
theorem State.doubleRounds_eq (n : Nat) (s : State) :
    State.doubleRounds n s = (s.setW (doubleRoundsOf n s.w)).setRnd (s.rnd + BitVec.ofNat 4 n) := by
  induction n with
  | zero => ext1 <;> simp [State.doubleRounds, doubleRoundsOf]
  | succ n ih =>
    rw [State.doubleRounds, ih]
    ext1 <;> simp [State.doubleRound, doubleRoundsOf, BitVec.ofNat_add, BitVec.add_assoc]

/-- The transform leaves the post-round array in W and the Block in B, and RND 0 (R70, R74). -/
theorem State.transform_eq (s : State) :
    s.transform = ((s.setW (workingOf s.s)).setB (blockOf s.s)).setRnd 0 := by
  rw [State.transform, State.doubleRounds_eq]
  ext1 <;> simp [State.loadWorking, State.addOriginal, workingOf, blockOf]

/-- One block of CIPHER (R89 step 5): the counter patched, W, B and KS recomputed from it, the chunk combined, BLK counted. -/
theorem State.cipherBlock_eq (s : State) :
    s.cipherBlock =
      let patched := s.s.set 12 (s.ctr0 + s.blk)
      let ks := serialize (blockOf patched)
      ((((((s.setS patched).setW (workingOf patched)).setB (blockOf patched)).setKs ks).setOut
        (combineBytes ks s.inMem (64 * s.blk.toNat) (chunkLen s.len s.blk.toNat) s.outMem)).setBlk (s.blk + 1)).setRnd 0 := by
  rw [State.cipherBlock, State.transform_eq]
  ext1 <;> simp [State.serializeBlock, State.combineChunk]

theorem State.len_congr {s t : State} (hlo : t.lenLo = s.lenLo) (hhi : t.lenHi = s.lenHi) : t.len = s.len := by
  simp [State.len, hlo, hhi]

/-- What the blocks of CIPHER leave unchanged: all but S, W, B, KS, OUT, BLK and RND (R89 "Writes"). -/
theorem State.cipherBlocks_frame (n : Nat) (s : State) :
    let t := State.cipherBlocks n s
    t.k = s.k ∧ t.n = s.n ∧ t.ctr0 = s.ctr0 ∧ t.valid = s.valid ∧ t.keyBuf = s.keyBuf ∧ t.nonceBuf = s.nonceBuf ∧
      t.keyLen = s.keyLen ∧ t.nonceLen = s.nonceLen ∧ t.ctrArg = s.ctrArg ∧ t.lenLo = s.lenLo ∧ t.lenHi = s.lenHi ∧
      t.cmd = s.cmd ∧ t.result = s.result ∧ t.faultLog = s.faultLog ∧ t.inMem = s.inMem ∧ t.inputs = s.inputs ∧
      t.reply = s.reply ∧ t.draws = s.draws := by
  induction n with
  | zero => simp [State.cipherBlocks]
  | succ n ih =>
    simp only [State.cipherBlocks, State.cipherBlock_eq]
    simpa using ih

/-- After `n` blocks from BLK 0, BLK is `n` (R12). -/
theorem State.cipherBlocks_blk (n : Nat) {s : State} (h : s.blk = 0) : (State.cipherBlocks n s).blk = BitVec.ofNat 32 n := by
  induction n with
  | zero => simp [State.cipherBlocks, h]
  | succ n ih => simp [State.cipherBlocks, State.cipherBlock_eq, ih, BitVec.ofNat_add]

/-- What the Combiner writes: inside the chunk text xor keystream, outside it nothing (R83, R90). -/
theorem combineBytes_read (ks : Bytes 64) (text : Memory) (base n : Nat) {out : Memory} (hw : out.wf = true) (a : Nat) :
    (combineBytes ks text base n out).read a =
      if base ≤ a ∧ a < base + n then text.read a ^^^ keystreamByte ks (a - base) else out.read a := by
  have wf : ∀ m, (combineBytes ks text base m out).wf = true := by
    intro m
    induction m with
    | zero => exact hw
    | succ m ih => exact Memory.write_wf ih _ _
  induction n with
  | zero =>
    have : ¬ (base ≤ a ∧ a < base + 0) := by omega
    rw [if_neg this, combineBytes]
  | succ n ih =>
    rw [combineBytes, Memory.read_write (wf n), ih]
    by_cases h : a = base + n
    · subst h; simp
    · by_cases h2 : base ≤ a ∧ a < base + n
      · rw [if_neg h, if_pos h2, if_pos (by omega)]
      · rw [if_neg h, if_neg h2, if_neg (by omega)]

/-- The Combiner keeps the canonical form. -/
theorem combineBytes_wf (ks : Bytes 64) (text : Memory) (base n : Nat) {out : Memory} (hw : out.wf = true) :
    (combineBytes ks text base n out).wf = true := by
  induction n with
  | zero => exact hw
  | succ n ih => exact Memory.write_wf ih _ _

/-- The Combiner lists no offset at or above 2^64 when its chunk ends by 2^64. -/
theorem combineBytes_inRange (ks : Bytes 64) (text : Memory) (base n : Nat) {out : Memory} (h : base + n ≤ 2 ^ 64)
    (hr : out.inRange = true) : (combineBytes ks text base n out).inRange = true := by
  induction n with
  | zero => exact hr
  | succ n ih => exact Memory.write_inRange (ih (by omega)) (by omega) _

/-- The command being executed, run to its end: nothing when idle, `exec` of a legal word, IllegalCommand of any other. -/
theorem State.runCommand_idle {s : State} (h : s.cmd = none) : s.runCommand = .next s := by
  simp [State.runCommand, h]

theorem State.runCommand_legal {s : State} {cw : Word} {i : Instr} (h : s.cmd = some cw) (hd : decode cw = .ok i) :
    s.runCommand = exec i s := by
  simp [State.runCommand, h, hd]

theorem State.runCommand_illegal {s : State} {cw : Word} {e : Illegal} (h : s.cmd = some cw) (hd : decode cw = .error e) :
    s.runCommand = .next (s.raise .illegalCommand) := by
  simp [State.runCommand, h, hd]

/-- Patching word 12 undoes what the blocks did to S (90_conflicts.md C4). -/
theorem State.cipherBlocks_patch (n : Nat) (s : State) (v : Word) :
    (State.cipherBlocks n s).s.set 12 v = s.s.set 12 v := by
  induction n with
  | zero => rfl
  | succ n ih =>
    have h : (State.cipherBlocks (n + 1) s).s = (State.cipherBlocks n s).s.set 12
        ((State.cipherBlocks n s).ctr0 + (State.cipherBlocks n s).blk) := by
      simp [State.cipherBlocks, State.cipherBlock_eq]
    rw [h, Vector.set_set, ih]

/-- The keystream of block `i` of a CIPHER whose State is `st`: word 12 patched to `ctr0 + i` (R87). -/
def blockKeystream (st : Words 16) (ctr0 : Word) (i : Nat) : Bytes 64 :=
  serialize (blockOf (st.set 12 (ctr0 + BitVec.ofNat 32 i)))

/-- OUT after the first `n` blocks from BLK 0: text xor keystream below `64 n` and LEN, the old byte elsewhere (R90). -/
theorem State.cipherBlocks_out {s : State} (hb : s.blk = 0) (hw : s.outMem.wf = true) {n : Nat} (hn : n ≤ 2 ^ 32)
    (hlen : 64 * (n - 1) ≤ s.len) :
    (State.cipherBlocks n s).outMem.wf = true ∧ ∀ a, (State.cipherBlocks n s).outMem.read a =
      if a < 64 * n ∧ a < s.len then
        s.inMem.read a ^^^ keystreamByte (blockKeystream s.s s.ctr0 (a / 64)) (a % 64)
      else s.outMem.read a := by
  induction n with
  | zero => simp [State.cipherBlocks, hw]
  | succ n ih =>
    obtain ⟨wf, out⟩ := ih (by omega) (by omega)
    obtain ⟨-, -, hc, -, -, -, -, -, -, hlo, hhi, -, -, -, hin, -, -, -⟩ := State.cipherBlocks_frame n s
    have blk := State.cipherBlocks_blk n hb
    have toNat : (State.cipherBlocks n s).blk.toNat = n := by simp [blk]; omega
    have len := State.len_congr hlo hhi
    have step : (State.cipherBlocks (n + 1) s).outMem =
        combineBytes (blockKeystream s.s s.ctr0 n) s.inMem (64 * n) (chunkLen s.len n)
          (State.cipherBlocks n s).outMem := by
      have mod : n % 4294967296 = n := by omega
      simp [State.cipherBlocks, State.cipherBlock_eq, blockKeystream, hin, len, hc, blk, mod, State.cipherBlocks_patch]
    rw [step]
    refine ⟨combineBytes_wf _ _ _ _ wf, fun a => ?_⟩
    rw [combineBytes_read _ _ _ _ wf, out]
    by_cases h : 64 * n ≤ a ∧ a < 64 * n + chunkLen s.len n
    · have hq : a / 64 = n := by simp only [chunkLen] at h; omega
      have hm : a - 64 * n = a % 64 := by simp only [chunkLen] at h; omega
      have hl : a < 64 * (n + 1) ∧ a < s.len := by simp only [chunkLen] at h; omega
      rw [if_pos h, if_pos hl, hq, hm]
    · rw [if_neg h]
      by_cases h2 : a < 64 * n ∧ a < s.len
      · rw [if_pos h2, if_pos (by omega)]
      · rw [if_neg h2, if_neg (by simp only [chunkLen] at h; omega)]

/-- The blocks of CIPHER list no offset at or above 2^64. -/
theorem State.cipherBlocks_inRange {s : State} (hb : s.blk = 0) (hr : s.outMem.inRange = true) {n : Nat} (hn : n ≤ 2 ^ 32) :
    (State.cipherBlocks n s).outMem.inRange = true := by
  induction n with
  | zero => exact hr
  | succ n ih =>
    have toNat : (State.cipherBlocks n s).blk.toNat = n := by simp [State.cipherBlocks_blk n hb]; omega
    simp only [State.cipherBlocks, State.cipherBlock_eq, State.setRnd_outMem, State.setBlk_outMem, State.setOut_outMem, toNat]
    exact combineBytes_inRange _ _ _ _ (by simp only [chunkLen]; omega) (ih (by omega))

/-- Each command's answer as an equation, to rewrite with: `exec` and the meanings then need no unfolding. -/
theorem exec_construct_ok {s : State} (hk : s.keyLen = 32) (hn : s.nonceLen = 12) :
    exec .construct s = .next ((s.setContext (keyWords s.keyBuf) (nonceWords s.nonceBuf) s.ctrArg).finish 0) := by
  rw [exec, execConstruct, if_neg (not_not.mpr hk), if_neg (not_not.mpr hn)]

theorem exec_construct_badKey {s : State} (hk : s.keyLen ≠ 32) :
    exec .construct s = .next (s.invalidate.raise .invalidKeyLength) := by
  rw [exec, execConstruct, if_pos hk]

theorem exec_construct_badNonce {s : State} (hk : s.keyLen = 32) (hn : s.nonceLen ≠ 12) :
    exec .construct s = .next (s.invalidate.raise .invalidNonceLength) := by
  rw [exec, execConstruct, if_neg (not_not.mpr hk), if_pos hn]

theorem exec_initstate_ok {s : State} (hv : s.valid = true) :
    exec .initstate s = .next ((s.setS (buildState s.k s.n s.ctrArg)).finish 0) := by
  rw [exec, execInitstate, if_neg (by simp [hv])]

theorem exec_initstate_noContext {s : State} (hv : s.valid = false) : exec .initstate s = .next (s.raise .noContext) := by
  rw [exec, execInitstate, if_pos hv]

theorem exec_block (s : State) : exec .block s = .next (s.transform.finish 0) := by rw [exec, execBlock]

theorem exec_serialize (s : State) : exec .serialize s = .next ((s.setKs (serialize s.b)).finish 0) := by
  rw [exec, execSerialize, State.serializeBlock]

theorem exec_combine_ok {s : State} (h : s.len ≤ 64) :
    exec .combine s = .next ((s.setOut (combineBytes s.ks s.inMem 0 s.len s.outMem)).finish 0) := by
  rw [exec, execCombine, if_neg (by omega), State.combineChunk]

theorem exec_combine_long {s : State} (h : 64 < s.len) : exec .combine s = .next (s.raise .lengthMismatch) := by
  rw [exec, execCombine, if_pos (by omega)]

theorem exec_cipher_ok {s : State} (hv : s.valid = true) (ho : counterOverflows s.ctr0 s.len = false) :
    exec .cipher s = .next ((State.cipherBlocks (ceil64 s.len) s.startCipher).finish 0) := by
  rw [exec, execCipher, if_neg (by simp [hv]), if_neg (by simp [ho])]

theorem exec_cipher_noContext {s : State} (hv : s.valid = false) : exec .cipher s = .next (s.raise .noContext) := by
  rw [exec, execCipher, if_pos hv]

theorem exec_cipher_overflow {s : State} (hv : s.valid = true) (ho : counterOverflows s.ctr0 s.len = true) :
    exec .cipher s = .next (s.raise .counterOverflow) := by
  rw [exec, execCipher, if_neg (by simp [hv]), if_pos ho]

theorem exec_copy (s : State) : exec .copy s = .next ((s.setW s.s).finish 0) := by rw [exec, execCopy, State.loadWorking]

theorem exec_qround_ok {a b c d : WIndex} (h : PairwiseDistinct a b c d) (s : State) :
    exec (.qround a b c d) s = .next ((s.setW (quarterRoundAt s.w a b c d)).finish 0) := by
  rw [exec, execQround, if_pos h]

theorem exec_qround_repeated {a b c d : WIndex} (h : ¬ PairwiseDistinct a b c d) (s : State) :
    exec (.qround a b c d) s = .next (s.raise .illegalCommand) := by
  rw [exec, execQround, if_neg h]

theorem exec_addstate (s : State) : exec .addstate s = .next ((s.setB (addWords s.w s.s)).finish 0) := by
  rw [exec, execAddstate, State.addOriginal]

theorem execAll_cons {i : Instr} {is : List Instr} {s t : State} (h : exec i s = .next t) :
    execAll (i :: is) s = execAll is t := by
  rw [execAll, h]

/-- A step with no host interaction pending is the CORE's; otherwise it is the host's next interaction. -/
theorem step_core {s : State} (h : s.inputs = []) : step s = s.runCommand := by rw [step, h]

theorem step_host {s : State} {i : Input} {rest : List Input} (h : s.inputs = i :: rest) :
    step s = (s.takeInput rest).interact i := by rw [step, h]

/-- A text that raises no `CounterOverflow` has at most 2^32 blocks (R88). -/
theorem ceil64_le_of_not_overflow {c : Word} {len : Nat} (h : counterOverflows c len = false) : ceil64 len ≤ 2 ^ 32 := by
  simp only [counterOverflows, decide_eq_false_iff_not, not_and_or] at h
  have := c.isLt
  omega

/-- What every command leaves unchanged: operands, IN, FAULTLOG, and the host's side (R16, R17, R32). -/
structure KeepsSurroundings (s u : State) : Prop where
  operands : SameOperands s u
  text : u.inMem = s.inMem
  log : u.faultLog = s.faultLog
  host : SameHost s u

/-- Everything a command can do, said once (R107, R108, R130): it answers a next state, which is a raised error from the
unchanged state (for CONSTRUCT with VALID cleared), or the end of an effect that keeps its surroundings and OUT's form. -/
theorem exec_cases (i : Instr) (s : State) :
    (∃ e, e ≠ CmdError.taskFailure ∧ exec i s = .next (s.raise e)) ∨
    (∃ e, e ≠ CmdError.taskFailure ∧ i = .construct ∧ exec i s = .next (s.invalidate.raise e)) ∨
    ∃ u : State, exec i s = .next (u.finish 0) ∧ KeepsSurroundings s u ∧
      (s.outMem.wf = true → u.outMem.wf = true) ∧ (s.outMem.inRange = true → u.outMem.inRange = true) := by
  have success : ∀ {t u : State}, t = u → KeepsSurroundings s u → u.outMem = s.outMem →
      ∃ v : State, Host.Outcome.next (φ := Fault) (ρ := Refusal) (t.finish 0) = .next (v.finish 0) ∧ KeepsSurroundings s v ∧
        (s.outMem.wf = true → v.outMem.wf = true) ∧ (s.outMem.inRange = true → v.outMem.inRange = true) :=
    fun h k o => ⟨_, by rw [h], k, by rw [o]; exact id, by rw [o]; exact id⟩
  cases i with
  | construct =>
    simp only [exec, execConstruct]
    split
    · exact .inr (.inl ⟨.invalidKeyLength, by decide, trivial, rfl⟩)
    · split
      · exact .inr (.inl ⟨.invalidNonceLength, by decide, trivial, rfl⟩)
      · exact .inr (.inr (success rfl ⟨by simp [SameOperands], by simp, by simp, by simp [SameHost]⟩ (by simp)))
  | initstate =>
    simp only [exec, execInitstate]
    split
    · exact .inl ⟨_, by decide, rfl⟩
    · exact .inr (.inr (success rfl ⟨by simp [SameOperands], by simp, by simp, by simp [SameHost]⟩ (by simp)))
  | block =>
    exact .inr (.inr (success (State.transform_eq s)
      ⟨by simp [SameOperands], by simp, by simp, by simp [SameHost]⟩ (by simp)))
  | serialize =>
    exact .inr (.inr (success (u := s.setKs (serialize s.b)) (by rw [State.serializeBlock])
      ⟨by simp [SameOperands], by simp, by simp, by simp [SameHost]⟩ (by simp)))
  | combine =>
    simp only [exec, execCombine]
    split
    · exact .inl ⟨_, by decide, rfl⟩
    · refine .inr (.inr ⟨_, rfl, ⟨?_, ?_, ?_, ?_⟩, ?_, ?_⟩)
      · simp [State.combineChunk, SameOperands]
      · simp [State.combineChunk]
      · simp [State.combineChunk]
      · simp [State.combineChunk, SameHost]
      · intro h; simpa [State.combineChunk] using combineBytes_wf _ _ _ _ h
      · intro h; simpa [State.combineChunk] using combineBytes_inRange _ _ _ _ (by omega) h
  | cipher =>
    simp only [exec, execCipher]
    split
    · exact .inl ⟨_, by decide, rfl⟩
    · split
      · exact .inl ⟨_, by decide, rfl⟩
      · rename_i hv ho
        have hn := ceil64_le_of_not_overflow (by simpa using ho)
        have hb : s.startCipher.blk = 0 := by simp [State.startCipher]
        have hl : s.startCipher.len = s.len := State.len_congr (by simp [State.startCipher]) (by simp [State.startCipher])
        obtain ⟨-, -, -, -, h1, h2, h3, h4, h5, h6, h7, -, -, h8, h9, h10, h11, h12⟩ :=
          State.cipherBlocks_frame (ceil64 s.len) s.startCipher
        refine .inr (.inr ⟨_, rfl, ⟨⟨?_, ?_, ?_, ?_, ?_, ?_, ?_⟩, ?_, ?_, ⟨?_, ?_, ?_⟩⟩, ?_, ?_⟩)
        · rw [h1]; simp [State.startCipher]
        · rw [h2]; simp [State.startCipher]
        · rw [h3]; simp [State.startCipher]
        · rw [h4]; simp [State.startCipher]
        · rw [h5]; simp [State.startCipher]
        · rw [h6]; simp [State.startCipher]
        · rw [h7]; simp [State.startCipher]
        · rw [h9]; simp [State.startCipher]
        · rw [h8]; simp [State.startCipher]
        · rw [h10]; simp [State.startCipher]
        · rw [h11]; simp [State.startCipher]
        · rw [h12]; simp [State.startCipher]
        · intro h
          exact (State.cipherBlocks_out hb (by simpa [State.startCipher] using h) hn
            (by rw [hl]; simp only [ceil64]; omega)).1
        · intro h
          exact State.cipherBlocks_inRange hb (by simpa [State.startCipher] using h) hn
  | copy =>
    exact .inr (.inr (success (u := s.setW s.s) (by rw [State.loadWorking])
      ⟨by simp [SameOperands], by simp, by simp, by simp [SameHost]⟩ (by simp)))
  | qround a b c d =>
    simp only [exec, execQround]
    split
    · exact .inr (.inr (success rfl ⟨by simp [SameOperands], by simp, by simp, by simp [SameHost]⟩ (by simp)))
    · exact .inl ⟨_, by decide, rfl⟩
  | addstate =>
    exact .inr (.inr (success (u := s.setB (addWords s.w s.s)) (by rw [State.addOriginal])
      ⟨by simp [SameOperands], by simp, by simp, by simp [SameHost]⟩ (by simp)))

end Sys2Proof.Machine
end

