-- ==== Sys2Proof/Laws/Operands.lean ====
section
/-! SUPPORT. What the operand forms do, said once: the bytes of a word and back, the byte lanes of a window word (R34), the window's
access check on a register's own offset, and the registers a quarter-round writes. -/

namespace Sys2Proof.Machine

/-- The four bytes of a word, packed, are the word (R60, R80). -/
theorem packLE_byteLE (v : Word) : packLE (byteLE v 0) (byteLE v 1) (byteLE v 2) (byteLE v 3) = v := by
  ext i hi
  rw [← BitVec.getLsbD_eq_getElem hi, ← BitVec.getLsbD_eq_getElem hi]
  simp only [packLE, byteLE, BitVec.getLsbD_or, BitVec.getLsbD_shiftLeft, BitVec.getLsbD_setWidth, BitVec.getLsbD_extractLsb']
  rcases Nat.lt_or_ge i 8 with h | h
  · simp [h, hi, show i < 16 by omega, show i < 24 by omega]
  · rcases Nat.lt_or_ge i 16 with h' | h'
    · simp [show ¬ i < 8 by omega, hi, h', show i < 24 by omega, show i - 8 < 8 by omega, show i - 8 < 32 by omega,
        show 8 + (i - 8) = i by omega]
    · rcases Nat.lt_or_ge i 24 with h'' | h''
      · simp [show ¬ i < 8 by omega, show ¬ i < 16 by omega, hi, h'', show ¬ i - 8 < 8 by omega, show i - 16 < 8 by omega,
          show i - 16 < 32 by omega, show 16 + (i - 16) = i by omega]
      · simp [show ¬ i < 8 by omega, show ¬ i < 16 by omega, show ¬ i < 24 by omega, hi, show ¬ i - 8 < 8 by omega,
          show ¬ i - 16 < 8 by omega, show i - 24 < 8 by omega, show i - 24 < 32 by omega, show 24 + (i - 24) = i by omega]

/-- Byte `i` of a byte file after word `j` is written: the word's byte of that lane, or the old byte (R34). -/
theorem getElem_putWord {m : Nat} (x : Bytes m) (j : Nat) (v : Word) (i : Fin m) :
    (putWord x j v)[i] = if i.val / 4 = j then byteLE v (i.val % 4) else x[i] := by
  simp [putWord]

/-- The word written to a byte file's lanes reads back (R34). -/
theorem wordOf_putWord_same {m : Nat} (x : Bytes m) (j : Nat) (h : 4 * j + 3 < m) (v : Word) : wordOf (putWord x j v) j h = v := by
  have d : 4 * j / 4 = j ∧ (4 * j + 1) / 4 = j ∧ (4 * j + 2) / 4 = j ∧ (4 * j + 3) / 4 = j := by omega
  have r : 4 * j % 4 = 0 ∧ (4 * j + 1) % 4 = 1 ∧ (4 * j + 2) % 4 = 2 ∧ (4 * j + 3) % 4 = 3 := by omega
  simp only [wordOf, putWord, Vector.getElem_ofFn, d, r, if_true]
  exact packLE_byteLE v

/-- The other words of the file are unchanged. -/
theorem wordOf_putWord_other {m : Nat} (x : Bytes m) {j i : Nat} (h : 4 * i + 3 < m) (hne : i ≠ j) (v : Word) :
    wordOf (putWord x j v) i h = wordOf x i h := by
  have d : 4 * i / 4 = i ∧ (4 * i + 1) / 4 = i ∧ (4 * i + 2) / 4 = i ∧ (4 * i + 3) / 4 = i := by omega
  simp [wordOf, putWord, d, hne]

/-- A word access at a register's own offset is an access to that register (R22). -/
theorem windowAccess_offset (r : WindowReg) : windowAccess r.offset .word = .ok r := by
  cases r <;> first
    | rfl
    | (rename_i j; revert j; decide)

/-- A quarter-round writes its four registers and no other; with distinct indices the order of the cases does not matter (R72). -/
theorem getElem_quarterRoundAt (w : Words 16) (a b c d i : WIndex) : (quarterRoundAt w a b c d)[i.val] =
    let q := quarterRound { a := w[a], b := w[b], c := w[c], d := w[d] }
    if d = i then q.d else if c = i then q.c else if b = i then q.b else if a = i then q.a else w[i] := by
  simp only [quarterRoundAt, Fin.getElem_fin, Vector.getElem_set, Fin.val_inj]

end Sys2Proof.Machine
end

