-- ==== Sys2Proof/Laws/Interaction.lean ====
section
/-! SUPPORT. What each interaction of the host does, said once, idle and busy (R22, R39, R125, R133). -/

namespace Sys2Proof.Machine

/-- A message access of an idle CORE's host takes place. -/
theorem State.hostMessage_idle {s : State} (h : s.cmd = none) (addr : BitVec 64) (t : State) : s.hostMessage addr t = .next t := by
  simp [State.hostMessage, State.busy, h]

/-- A message access while `BUSY = 1` is refused. -/
theorem State.hostMessage_busy {s : State} (h : s.busy = true) (addr : BitVec 64) (t : State) :
    s.hostMessage addr t = .refused (.messageWhileBusy addr) := by
  rw [State.hostMessage, if_pos h]

/-- A window access the map does not allow is refused under the map's reason. -/
theorem State.hostRead_error {off : Nat} {size : AccessSize} {r : Refusal} (h : windowAccess off size = .error r) (s : State) :
    s.hostRead off size = .refused r := by
  rw [State.hostRead, h]

theorem State.hostWrite_error {off : Nat} {size : AccessSize} {r : Refusal} (h : windowAccess off size = .error r) (s : State)
    (v : Word) : s.hostWrite off size v = .refused r := by
  rw [State.hostWrite, h]

/-- While `BUSY = 1` a register write is refused, and a read of any register but STATUS. -/
theorem State.hostWrite_busy {s : State} {off : Nat} {reg : WindowReg} (hb : s.busy = true)
    (h : windowAccess off .word = .ok reg) (v : Word) : s.hostWrite off .word v = .refused (.registerWhileBusy reg) := by
  simp [State.hostWrite, h, hb]

theorem State.hostRead_busy {s : State} {off : Nat} {reg : WindowReg} (hb : s.busy = true)
    (h : windowAccess off .word = .ok reg) (hr : reg ≠ .status) : s.hostRead off .word = .refused (.registerWhileBusy reg) := by
  simp [State.hostRead, h, hb, hr]

/-- A read of an idle CORE's register that the host may read replies with its value. -/
theorem State.hostRead_idle {s : State} {off : Nat} {reg : WindowReg} {v : Word} (hc : s.cmd = none)
    (h : windowAccess off .word = .ok reg) (hv : s.readReg reg = some v) :
    s.hostRead off .word = .next (s.answer (.word v) 0) := by
  simp [State.hostRead, h, hv, State.busy, hc]

/-- A read of CMD, the one register the host may not read, is refused. -/
theorem State.hostRead_writeOnly {s : State} {off : Nat} {reg : WindowReg} (hc : s.cmd = none)
    (h : windowAccess off .word = .ok reg) (hv : s.readReg reg = none) : s.hostRead off .word = .refused .readOfWriteOnly := by
  simp [State.hostRead, h, hv, State.busy, hc]

/-- A write of an idle CORE's register that the host may write takes place. -/
theorem State.hostWrite_idle {s t : State} {off : Nat} {reg : WindowReg} {v : Word} (hc : s.cmd = none)
    (h : windowAccess off .word = .ok reg) (hw : s.writeReg v reg = some t) : s.hostWrite off .word v = .next t := by
  simp [State.hostWrite, h, hw, State.busy, hc]

/-- A write of a read-only register is refused. -/
theorem State.hostWrite_readOnly {s : State} {off : Nat} {reg : WindowReg} {v : Word} (hc : s.cmd = none)
    (h : windowAccess off .word = .ok reg) (hw : s.writeReg v reg = none) :
    s.hostWrite off .word v = .refused (.writeOfReadOnly reg) := by
  simp [State.hostWrite, h, hw, State.busy, hc]

end Sys2Proof.Machine
end

