-- ==== Sys2Proof/Laws/PerInstr.lean ====
section
/-! SUPPORT. Facts about every command as syntax, one lemma per constructor: the low byte of a command's word is its operation
code (R45). -/

namespace Sys2Proof.Laws.OpByte

/-- Bits 7:0 of the command word are the operation code (R45, R46). -/
def Statement (i : Instr) : Prop := (encode i).extractLsb' 0 8 = i.op

/-- The low byte of a word given as a number. -/
theorem low_byte (n m : Nat) (h : n % 256 = m) :
    (BitVec.ofNat 32 n).extractLsb' 0 8 = BitVec.ofNat 8 m := by
  apply BitVec.eq_of_toNat_eq
  simp only [BitVec.extractLsb'_toNat, BitVec.toNat_ofNat, Nat.shiftRight_zero]
  omega

theorem construct : Statement .construct := by unfold Statement; decide

theorem initstate : Statement .initstate := by unfold Statement; decide

theorem block : Statement .block := by unfold Statement; decide

theorem serialize : Statement .serialize := by unfold Statement; decide

theorem combine : Statement .combine := by unfold Statement; decide

theorem cipher : Statement .cipher := by unfold Statement; decide

theorem copy : Statement .copy := by unfold Statement; decide

theorem qround (a b c d : WIndex) : Statement (.qround a b c d) :=
  low_byte _ 17 (by omega)

theorem addstate : Statement .addstate := by unfold Statement; decide

end Sys2Proof.Laws.OpByte
end

