-- ==== Sys2Proof/Tests/Slice0.lean ====
section
/-! SUPPORT. Tests of single steps against spec/95_test_vectors.md, and a witness for the hypotheses of every obligation. -/

namespace Sys2Proof.Tests

open Sys2Proof.Machine

/-! ## Helpers -/

/-- One view of the next state an answer gives, and none if it gives no next state. -/
def seen {α : Type} (a : Answer) (f : State → α) : Option α :=
  match a with
  | .next t => some (f t)
  | .fault _ => none
  | .refused _ => none

/-- The refusal an answer is, if it is one. -/
def refusal (a : Answer) : Option Refusal :=
  match a with
  | .next _ => none
  | .fault _ => none
  | .refused r => some r

/-- The first `n` bytes of OUT. -/
def outBytes (n : Nat) (s : State) : List Byte := (List.range n).map s.outMem.read

/-- A text placed in a message space from offset `a`. -/
def place : Nat → List Byte → Memory → Memory
  | _, [], m => m
  | a, v :: vs, m => place (a + 1) vs (m.write a v)

/-- `KEY_A`: bytes 00 01 .. 1f. -/
def keyA : Bytes 32 := Vector.ofFn fun i => BitVec.ofNat 8 i.val

/-- `NONCE_A`. -/
def nonceA : Bytes 12 := #v[0, 0, 0, 9, 0, 0, 0, 0x4a, 0, 0, 0, 0]

/-- The operands of V1 written, nothing else. -/
def operandsA : State :=
  { State.reset with keyBuf := keyA, nonceBuf := nonceA, keyLen := 0x20, nonceLen := 0x0c, ctrArg := 1 }

/-- The key words of V1. -/
def kA : Words 8 := #v[0x03020100, 0x07060504, 0x0b0a0908, 0x0f0e0d0c, 0x13121110, 0x17161514, 0x1b1a1918, 0x1f1e1d1c]

/-- The nonce words of V1. -/
def nA : Words 3 := #v[0x09000000, 0x4a000000, 0x00000000]

/-- The State of V5. -/
def sA : Words 16 := #v[0x61707865, 0x3320646e, 0x79622d32, 0x6b206574, 0x03020100, 0x07060504, 0x0b0a0908, 0x0f0e0d0c,
    0x13121110, 0x17161514, 0x1b1a1918, 0x1f1e1d1c, 0x00000001, 0x09000000, 0x4a000000, 0x00000000]

/-- The working array of V6, row DR 10. -/
def wA : Words 16 := #v[0x837778ab, 0xe238d763, 0xa67ae21e, 0x5950bb2f, 0xc4f2d0c7, 0xfc62bb2f, 0x8fa018fc, 0x3f5ec7b7,
    0x335271c2, 0xf29489f3, 0xeabda8fc, 0x82e46ebd, 0xd19c12b4, 0xb04e16de, 0x9e83d0cb, 0x4e3c50a2]

/-- The Block of V6. -/
def bA : Words 16 := #v[0xe4e7f110, 0x15593bd1, 0x1fdd0f50, 0xc47120a3, 0xc7f4d1c7, 0x0368c033, 0x9aaa2204, 0x4e6cd4c3,
    0x466482d2, 0x09aa9f07, 0x05d7c214, 0xa2028bd9, 0xd19c12b5, 0xb94e16de, 0xe883d0cb, 0x4e3c50a2]

/-- The context of V1 with a base counter and a text length, and nothing else. -/
def withContext (ctr len : Word) : State :=
  { State.reset with k := kA, n := nA, ctr0 := ctr, valid := true, lenLo := len }

/-- A command word being executed on the reset state, and the host's interactions to come. -/
def running (cw : Word) (inputs : List Input) : State := { State.reset with cmd := some cw, inputs := inputs }

/-! ## Decoding (V17) and well-formedness -/

theorem test_decode_construct : decode 0x00000001 = .ok .construct := by decide

theorem test_decode_initstate : decode 0x00000002 = .ok .initstate := by decide

theorem test_decode_block : decode 0x00000003 = .ok .block := by decide

theorem test_decode_serialize : decode 0x00000004 = .ok .serialize := by decide

theorem test_decode_combine : decode 0x00000005 = .ok .combine := by decide

theorem test_decode_cipher : decode 0x00000006 = .ok .cipher := by decide

theorem test_decode_copy : decode 0x00000010 = .ok .copy := by decide

/-- `QROUND 0,4,8,12`, bit by bit: zero 31:24, d 23:20, c 19:16, b 15:12, a 11:8, op 7:0 (R45). -/
theorem test_decode_qround : decode 0b00000000_1100_1000_0100_0000_00010001 = .ok (.qround 0 4 8 12) := by decide

theorem test_decode_qround_operand_order : decode 0x00cdef11 = .ok (.qround 15 14 13 12) := by decide

theorem test_decode_addstate : decode 0x00000012 = .ok .addstate := by decide

theorem test_decode_unassigned :
    [0x00000000, 0x00000007, 0x00000008, 0x0000000f, 0x00000013, 0x000000ff, 0xffffffff].map decode =
      List.replicate 7 (.error .unassignedOp) := by decide

theorem test_decode_nonzero_bits :
    [0x00000101, 0x80000003, 0x01c84011].map decode = List.replicate 3 (.error .nonzeroBits) := by decide

theorem test_decode_repeated_index :
    [0x00000011, 0x00c84411, 0x00c8c011].map decode = List.replicate 3 (.error .repeatedIndex) := by decide

/-- The one check of well-formedness refuses an ill-formed term, for each pair of equal indices (R47). -/
theorem test_wellFormed_refuses :
    ¬ (Instr.qround 4 4 8 12).WellFormed ∧ ¬ (Instr.qround 8 4 8 12).WellFormed ∧ ¬ (Instr.qround 12 4 8 12).WellFormed ∧
      ¬ (Instr.qround 0 4 4 12).WellFormed ∧ ¬ (Instr.qround 0 12 8 12).WellFormed ∧
      ¬ (Instr.qround 0 4 12 12).WellFormed ∧ (Instr.qround 0 4 8 12).WellFormed :=
  ⟨by decide, by decide, by decide, by decide, by decide, by decide, by decide⟩

/-- The words of a double round, from the programs P2b and R53. -/
theorem test_encode_dRound : dRound.map encode =
    [0x00c84011, 0x00d95111, 0x00ea6211, 0x00fb7311, 0x00fa5011, 0x00cb6111, 0x00d87211, 0x00e94311] := by decide

/-- BLOCK.LONG has 82 commands (R53). -/
theorem test_blockLong_length : blockLong.length = 82 := by decide

theorem test_decodeTableWord : decodeTableWord 32 0x00321011 = some (.qround 0 1 2 3) := by decide

/-! ## Operands, flags, arithmetic -/

/-- V1. -/
theorem test_packLE : packLE 0x01 0x02 0x03 0x04 = 0x04030201 ∧ packLE 0 0 0 0x80 = 0x80000000 := by decide

/-- V2. -/
theorem test_rotl32 : rotl32 0x7998bfda 7 = 0xcc5fed3c ∧ rotl32 0x80000000 1 = 1 ∧ rotl32 0x00000001 31 = 0x80000000 ∧
    rotl32 0x12345678 12 = 0x45678123 := by decide

/-- V4, all ones: every addition drops its carry. -/
theorem test_quarterRound_carries :
    quarterRound { a := 0xffffffff, b := 0xffffffff, c := 0xffffffff, d := 0xffffffff } =
      { a := 0xf0000ffd, b := 0x88790878, c := 0x0110fdef, d := 0x010ffdf0 } := by decide

/-- V15: the limit, one byte below and above it, and a length whose block count passes 2^32. -/
theorem test_counterOverflows :
    counterOverflows 0xffffffff 64 = false ∧ counterOverflows 0xffffffff 65 = true ∧ counterOverflows 0xfffffffe 128 = false ∧
      counterOverflows 0xfffffffe 129 = true ∧ counterOverflows 0 (2 ^ 38) = false ∧ counterOverflows 0 (2 ^ 38 + 1) = true ∧
      counterOverflows 1 (2 ^ 38 - 63) = true ∧ counterOverflows 0 (2 ^ 64 - 1) = true ∧ counterOverflows 0xffffffff 0 = false := by
  decide

/-- V16 row 10: VALID 1, RESULT 3, idle. -/
theorem test_status : statusWord false true 3 = 0x00000032 := by decide

/-! ## Commands -/

/-- V1: CONSTRUCT. -/
theorem test_construct : seen (exec .construct operandsA) (fun t => (t.k, t.n, t.ctr0, t.status)) = some (kA, nA, 1, 2) := by
  decide

/-- V16 row 8: both lengths wrong, the key is reported and VALID cleared. -/
theorem test_construct_key_first :
    seen (exec .construct { operandsA with keyLen := 0x1f, nonceLen := 0x0b, valid := true, faultLog := 0x46 })
      (fun t => (t.status, t.faultLog)) = some (0x10, 0x46) := by decide

/-- V5: the counter is CTR_ARG, not CTR0. -/
theorem test_initstate : seen (exec .initstate { withContext 7 0 with ctrArg := 1 }) (fun t => (t.s, t.ctr0)) = some (sA, 7) := by
  decide

/-- V16 row 2. -/
theorem test_initstate_no_context :
    seen (exec .initstate State.reset) (fun t => (t.status, t.faultLog, t.s[0])) = some (0x60, 0x40, 0) := by decide

/-- V6: the whole Block and the post-round array. -/
theorem test_block : seen (exec .block { State.reset with s := sA }) (fun t => (t.w, t.b, t.s[12])) = some (wA, bA, 1) := by
  decide +kernel

/-- V5: COPY (R71). -/
theorem test_copy : seen (exec .copy { State.reset with s := sA }) (fun t => (t.w, t.s)) = some (sA, sA) := by decide

/-- V4: the operand order decides which register plays which part. -/
theorem test_qround :
    seen (exec (.qround 15 14 13 12) { State.reset with w := #v[0x0, 0x0, 0x0, 0x0, 0x0, 0x0, 0x0, 0x0, 0x0, 0x0, 0x0, 0x7, 0x01234567, 0x9b8d6f43, 0x01020304, 0x11111111] })
      (fun t => t.w) = some #v[0x0, 0x0, 0x0, 0x0, 0x0, 0x0, 0x0, 0x0, 0x0, 0x0, 0x0, 0x7, 0x5881c4bb, 0x4581472e, 0xcb1cf8ce, 0xea2a92f4] := by decide

/-- R106: a repeated index. -/
theorem test_qround_repeated : seen (exec (.qround 4 4 8 12) State.reset) (fun t => (t.status, t.faultLog)) = some (0x70, 0x80) := by
  decide

/-- R73's corner: a word wraps and no carry passes to the next. -/
theorem test_addstate :
    seen (exec .addstate { State.reset with w := Vector.replicate 16 0xffffffff, s := (Vector.replicate 16 0).set 3 1 })
      (fun t => (t.b[3], t.b[4])) = some (0, 0xffffffff) := by decide

/-- V10. -/
theorem test_serialize :
    seen (exec .serialize { State.reset with b := #v[0x01020304, 0x80000000, 0x000000ff, 0xdeadbeef, 0x00000000,
    0x00000001, 0x00000002, 0x00000003, 0x00000004, 0x00000005, 0x00000006, 0x00000007, 0x00000008, 0x00000009,
    0x0000000a, 0x0000000b] })
      (fun t => t.ks.toList) = some
    [0x04, 0x03, 0x02, 0x01, 0x00, 0x00, 0x00, 0x80, 0xff, 0x00, 0x00, 0x00, 0xef, 0xbe, 0xad, 0xde, 0x00, 0x00, 0x00,
    0x00, 0x01, 0x00, 0x00, 0x00, 0x02, 0x00, 0x00, 0x00, 0x03, 0x00, 0x00, 0x00, 0x04, 0x00, 0x00, 0x00, 0x05, 0x00,
    0x00, 0x00, 0x06, 0x00, 0x00, 0x00, 0x07, 0x00, 0x00, 0x00, 0x08, 0x00, 0x00, 0x00, 0x09, 0x00, 0x00, 0x00, 0x0a,
    0x00, 0x00, 0x00, 0x0b, 0x00, 0x00, 0x00] := by decide +kernel

/-- The keystream of V6 in KS, as SERIALIZE leaves it, and a text in IN. -/
def combining (text : List Byte) (len : Word) : State :=
  { State.reset with ks := serialize bA, inMem := place 0 text [], lenLo := len }

/-- V11. -/
theorem test_combine :
    seen (exec .combine (combining [0xff, 0xff, 0xff, 0xff, 0xff] 5)) (outBytes 6) =
      some [0xef, 0x0e, 0x18, 0x1b, 0x2e, 0x00] := by decide +kernel

/-- V11: LEN 65 is LengthMismatch, OUT untouched. -/
theorem test_combine_too_long :
    seen (exec .combine { combining [0xff] 65 with outMem := [(0, 0x5a)] }) (fun t => (t.result, t.faultLog, t.outMem)) =
      some (3, 8, [(0, 0x5a)]) := by decide +kernel

/-- V12: two blocks, the second of one byte under the next counter; OUT beyond LEN is kept (R92). -/
theorem test_cipher :
    seen (exec .cipher { withContext 1 65 with inMem := [(1, 0x01), (64, 0x40)], outMem := [(65, 0x77)] })
      (fun t => (t.outMem.read 0, t.outMem.read 1, t.outMem.read 64, t.outMem.read 65, t.s[12], t.w[0])) =
      some (0x10, 0xf0, 0x4a, 0x77, 2, 0x16130fa5) := by decide +kernel

/-- V15: at base counter 0xffffffff, 65 bytes overflow: RESULT 5 and nothing written. -/
theorem test_cipher_overflow :
    seen (exec .cipher (withContext 0xffffffff 65)) (fun t => (t.status, t.faultLog, t.outMem, t.s[0])) =
      some (0x52, 0x20, [], 0) := by decide

/-! ## Steps, the window, reset -/

/-- V16 row 11: an illegal word. -/
theorem test_step_illegal : seen (step (running 7 [])) (fun t => (t.status, t.faultLog)) = some (0x70, 0x80) := by decide

/-- The very next step runs the placed command word. -/
theorem test_withFetchWord :
    seen (step (State.reset.withFetchWord 32 0x00000010)) (fun t => (t.busy, t.result)) = some (false, 0) := by decide

/-- V1: 03020100 written at offset 040 is KEYBUF[0..3] = 00 01 02 03. -/
theorem test_write_keyBuf :
    seen (step { State.reset with inputs := [.write 0x040 .word 0x03020100] })
      (fun t => (t.keyBuf[0], t.keyBuf[1], t.keyBuf[3], t.keyBuf[4])) = some (0, 1, 3, 0) := by decide

/-- V10: the word read at offset 180 in V6 is B[0]. -/
theorem test_read_ks :
    seen (step { combining [] 0 with inputs := [.read 0x180 .word] }) (fun t => t.reply) = some (some (.word 0xe4e7f110)) := by
  decide +kernel

/-- V16 row 17: reset clears FAULTLOG and leaves the text. -/
theorem test_reset :
    seen (step { operandsA with faultLog := 0xee, inMem := [(3, 9)], inputs := [.reset] })
      (fun t => (t.faultLog, t.keyLen, t.inMem)) = some (0, 0, [(3, 9)]) := by decide

/-- R39, D16: the host may not fill IN while any command is being executed. -/
theorem test_writeIn_while_block :
    refusal (step (running 0x03 [.writeIn 0 1])) = some (.messageWhileBusy 0) := by decide

/-! ## Witnesses: states and operands that meet the hypotheses of each obligation -/

theorem witness_DecodeOfEncode : (Instr.qround 15 14 13 12).WellFormed ∧ (Instr.qround 0 1 2 3).WellFormed := by decide

theorem witness_EncodeOfDecode : decode 0x00cdef11 = .ok (.qround 15 14 13 12) ∧ decode 0x12 = .ok .addstate := by decide

theorem witness_IllegalWords :
    ∃ s : State, s.cmd = some 0x00c84411 ∧ s.inputs = [] ∧ ∃ e, decode 0x00c84411 = .error e :=
  ⟨running 0x00c84411 [], rfl, rfl, .repeatedIndex, by decide⟩

theorem witness_RowsSelectedByMask :
    (0x00c84411#32 &&& (Instr.qround 0 1 2 3).mask = (Instr.qround 0 1 2 3).pattern) ∧
      (0x00c84011#32 &&& (Instr.qround 0 1 2 3).mask = (Instr.qround 0 1 2 3).pattern) ∧
      (0x00000003#32 &&& Instr.block.mask = Instr.block.pattern) ∧ decode 0x00000003 = .ok .block := by decide

theorem witness_StepExecutesDecodedCommand :
    (∃ s : State, s.cmd = some 0x10 ∧ decode 0x10 = .ok .copy ∧ s.inputs = []) ∧
      ∃ s : State, s.cmd = some 0x10 ∧ decode 0x10 = .ok .copy ∧ s.inputs = [.wait] :=
  ⟨⟨running 0x10 [], rfl, by decide, rfl⟩, running 0x10 [.wait], rfl, by decide, rfl⟩

theorem witness_CommandWriteStarts :
    (∃ s : State, s.cmd = none ∧ s.inputs = [.write 0x000 .word 0x10] ∧ decode 0x10 = .ok .copy) ∧
      (∃ s : State, s.cmd = none ∧ s.inputs = [.read 0x000 .word]) ∧
      ∃ s : State, s.busy = true ∧ s.inputs = [.write 0x000 .word 0x10] :=
  ⟨⟨{ State.reset with inputs := [.write 0x000 .word 0x10] }, rfl, rfl, by decide⟩,
    ⟨{ State.reset with inputs := [.read 0x000 .word] }, rfl, rfl⟩, running 0x03 [.write 0x000 .word 0x10], rfl, rfl⟩

theorem witness_BusyRegisterAccess :
    (∃ s : State, s.busy = true ∧ windowAccess 0x1bc .word = .ok (.ks 15) ∧ s.inputs = [.write 0x1bc .word 1]) ∧
      (∃ s : State, s.busy = true ∧ windowAccess 0x000 .word = .ok .cmd ∧ s.inputs = [.read 0x000 .word]) ∧
      ∃ s : State, s.busy = true ∧ windowAccess 0x004 .word = .ok .status ∧ s.inputs = [.read 0x004 .word] :=
  ⟨⟨running 0x03 [.write 0x1bc .word 1], rfl, rfl, rfl⟩, ⟨running 0x03 [.read 0x000 .word], rfl, rfl, rfl⟩,
    running 0x03 [.read 0x004 .word], rfl, rfl, rfl⟩

theorem witness_IdleStatusRead : ∃ s : State, s.cmd = none ∧ s.inputs = [.read 0x004 .word] ∧ s.valid = true :=
  ⟨{ withContext 1 0 with inputs := [.read 0x004 .word] }, rfl, rfl, rfl⟩

/-- Each of the three accesses while a CIPHER, a COMBINE, another command and an illegal word is being executed. -/
theorem witness_MessagesWhileBusy :
    ∀ cw ∈ [0x06, 0x05, 0x03, 0x07], ∀ i ∈ [Input.writeIn 63 1, Input.writeOut 63 1, Input.readOut 63],
      ∃ s : State, s.cmd = some cw ∧ s.busy = true ∧ s.inputs = [i] :=
  fun cw _ i _ => ⟨running cw [i], rfl, rfl, rfl⟩

/-- Each of the three accesses, at the last offset there is. -/
theorem witness_MessageAccessAllowed :
    ∀ i ∈ [Input.writeIn (-1) 1, Input.writeOut (-1) 1, Input.readOut (-1)],
      ∃ s : State, s.cmd = none ∧ s.inMem.wf = true ∧ s.outMem.wf = true ∧ s.inputs = [i] :=
  fun i _ => ⟨{ State.reset with inputs := [i] }, rfl, rfl, rfl, rfl⟩

/-- The boundaries of each clause: a narrow and a misaligned access, the ends of the reserved ranges, the read-only ranges. -/
theorem witness_WindowRefusals :
    [(0x000, AccessSize.byte), (0x002, .word), (0x004, .double)].map
        (fun p => refusal (step { State.reset with inputs := [.read p.1 p.2] })) =
      [some (.notAlignedWord 0x000), some (.notAlignedWord 0x002), some (.notAlignedWord 0x004)] ∧
    [0x020, 0x03c, 0x06c, 0x07c, 0x0b0, 0x0bc, 0x1c0, 0x200].map
        (fun o => refusal (step { State.reset with inputs := [.write o .word 1] })) =
      [0x020, 0x03c, 0x06c, 0x07c, 0x0b0, 0x0bc, 0x1c0, 0x200].map (fun o => some (.reservedOffset o)) ∧
    [0x004, 0x008, 0x080, 0x0ac].map (fun o => refusal (step { State.reset with inputs := [.write o .word 1] })) =
      [some (.writeOfReadOnly .status), some (.writeOfReadOnly .faultLog), some (.writeOfReadOnly (.k 0)),
        some (.writeOfReadOnly .ctr0)] ∧
    refusal (step { State.reset with inputs := [.read 0x000 .word] }) = some .readOfWriteOnly := by decide

theorem witness_WindowMap : windowReg 0x1bc = some (.ks 15) ∧ 0x1bc % 4 = 0 ∧ windowReg 0x068 = some (.nonceBuf 2) := by decide

theorem witness_WindowReadBack :
    State.reset.cmd = none ∧ ∃ s : State, s.cmd = none ∧ (s.writeReg 0x09000000 (.nonceBuf 2)).isSome = true ∧
      s.inputs = [.write (WindowReg.nonceBuf 2).offset .word 0x09000000, .read (WindowReg.nonceBuf 2).offset .word] :=
  ⟨rfl, { State.reset with
      inputs := [.write (WindowReg.nonceBuf 2).offset .word 0x09000000, .read (WindowReg.nonceBuf 2).offset .word] },
    rfl, rfl, rfl⟩

theorem witness_WindowWrites : State.reset.cmd = none ∧ (withContext 1 65).cmd = none := by decide

theorem witness_ResetValues :
    ∃ s : State, s.cmd = none ∧ s.inputs = [.reset] ∧ s.faultLog = 0xee :=
  ⟨{ State.reset with inputs := [.reset], faultLog := 0xee }, rfl, rfl, rfl⟩

theorem witness_ResetInput :
    (∃ s : State, s.inputs = [.reset] ∧ s.usingMessages = false ∧ s.busy = true) ∧
      ∃ s : State, s.inputs = [.reset] ∧ s.usingMessages = true :=
  ⟨⟨running 0x03 [.reset], rfl, by decide, rfl⟩, running 0x06 [.reset], rfl, by decide⟩

/-- A text of one byte, so that both the offsets below LEN and those from LEN on are there; for each of the two commands. -/
theorem witness_ResetAbandonsOutput :
    ∀ cw ∈ [0x05, 0x06], ∃ s : State, s.cmd = some cw ∧ (decode cw = .ok .combine ∨ decode cw = .ok .cipher) ∧
      s.outMem.wf = true ∧ s.inputs = [.reset] ∧ 0 < s.len := by
  intro cw hc
  exact ⟨{ withContext 1 1 with cmd := some cw, inputs := [.reset] }, rfl, by fin_cases hc <;> decide, rfl, rfl,
    by simp [State.len, withContext, State.reset]⟩

theorem witness_IdleDoesNothing : State.reset.cmd = none ∧ State.reset.inputs = [] := by decide

theorem witness_CommandsOnResetState : PairwiseDistinct 0 1 2 3 := by decide

theorem witness_ConstructCommand :
    ({ operandsA with keyLen := 0x1f }).keyLen ≠ 32 ∧ ({ operandsA with keyLen := 0x21 }).keyLen ≠ 32 ∧
      (({ operandsA with nonceLen := 0x0b }).keyLen = 32 ∧ ({ operandsA with nonceLen := 0x0b }).nonceLen ≠ 12) ∧
      (operandsA.keyLen = 32 ∧ operandsA.nonceLen = 12) := by decide

theorem witness_InitstateCommand : State.reset.valid = false ∧ (withContext 1 0).valid = true := by decide

theorem witness_QroundCommand : PairwiseDistinct 15 14 13 12 ∧ ¬ PairwiseDistinct 4 4 8 12 := by decide

theorem witness_BlockIsPure : ∃ s s' : State, s.s = s'.s ∧ s.w ≠ s'.w :=
  ⟨State.reset, { State.reset with w := wA }, rfl, by decide⟩

theorem witness_CombineCommand :
    (combining [] 65).outMem.wf = true ∧ 64 < (combining [] 65).len ∧ (combining [] 64).outMem.wf = true ∧
      (combining [] 64).len ≤ 64 ∧ 0 < (combining [] 64).len := by decide

/-- The longest text under the last counter, and one of two blocks. -/
theorem witness_CipherCommand :
    ((withContext 0xffffffff 64).valid = true ∧
      (withContext 0xffffffff 64).ctr0.toNat + ((withContext 0xffffffff 64).len + 63) / 64 ≤ 2 ^ 32 ∧
      (withContext 0xffffffff 64).outMem.wf = true) ∧
    (withContext 1 65).ctr0.toNat + ((withContext 1 65).len + 63) / 64 ≤ 2 ^ 32 := by decide

/-- A text of one byte, an empty one, and a failure. -/
theorem witness_CipherScratch :
    seen (exec .cipher (withContext 1 1)) (fun t => t.result) = some 0 ∧ 0 < (withContext 1 1).len ∧
      seen (exec .cipher (withContext 1 0)) (fun t => t.result) = some 0 ∧ (withContext 1 0).len = 0 ∧
      seen (exec .cipher State.reset) (fun t => decide (t.result ≠ 0)) = some true := by decide +kernel

theorem witness_CounterOverflowPolicy :
    (withContext 0xffffffff 65).valid = true ∧
      64 * (2 ^ 32 - (withContext 0xffffffff 65).ctr0.toNat) < (withContext 0xffffffff 65).len ∧
      (withContext 0xffffffff 64).valid = true ∧
      (withContext 0xffffffff 64).len ≤ 64 * (2 ^ 32 - (withContext 0xffffffff 64).ctr0.toNat) := by decide

theorem witness_NoContextRaised : (withContext 0xffffffff 65 |>.invalidate).valid = false ∧ State.reset.valid = false := by decide

theorem witness_PackLittleEndian : 4 * 2 + 3 < 12 ∧ 4 * 7 + 3 < 32 ∧ 4 * 0 + 3 < 4 := by decide

theorem witness_RotateLeft : (1 ≤ 1 ∧ 1 ≤ 31) ∧ (1 ≤ 31 ∧ 31 ≤ 31) ∧ 31 < 32 := by decide

theorem witness_LanesIndependent : ([0, 4, 8, 12, 1, 5, 9, 13] : List WIndex).Nodup := by decide

/-- A text of 65 bytes has a full block and a last one of one byte. -/
theorem witness_TextPartition :
    0 + 1 < ceil64 65 ∧ 64 < 65 ∧ 1 < ceil64 65 ∧ 64 < 64 * 1 + chunkLen 65 1 ∧ chunkLen 65 0 = 64 ∧ chunkLen 65 1 = 1 := by
  decide

/-- A text of one byte and a memory that holds the output there. -/
theorem witness_CombineSelfInverse :
    (combining [0x61] 1).len ≤ 64 ∧ (combining [0x61] 1).outMem.wf = true ∧
      seen (exec .combine (combining [0x61] 1)) (fun t => (t.outMem.read 0, Memory.read [(0, 0x71)] 0)) =
        some (0x71, 0x71) := by decide +kernel

/-- A text of one byte and a memory that holds the output there. -/
theorem witness_CipherSelfInverse :
    (withContext 1 1).valid = true ∧ (withContext 1 1).ctr0.toNat + ((withContext 1 1).len + 63) / 64 ≤ 2 ^ 32 ∧
      (withContext 1 1).outMem.wf = true ∧
      seen (exec .cipher (withContext 1 1)) (fun t => (t.outMem.read 0, Memory.read [(0, 0x10)] 0)) =
        some (0x10, 0x10) := by decide +kernel

theorem witness_CipherPrefix :
    ∃ s1 s2 : State, s1.valid = true ∧ SameContext s1 s2 ∧ SameText s1 s2 ∧ s1.len < s2.len ∧ 0 < s1.len ∧
      s2.ctr0.toNat + (s2.len + 63) / 64 ≤ 2 ^ 32 ∧ s1.outMem.wf = true ∧ s2.outMem.wf = true :=
  ⟨withContext 1 63, withContext 1 65, rfl, ⟨rfl, rfl, rfl, rfl⟩, fun _ => rfl, by decide, by decide, by decide, rfl, rfl⟩

/-- The restart of V12: counter 2, the text from offset 64 on. -/
theorem witness_CipherRestart :
    ∃ s1 s2 : State, s1.valid = true ∧ s2.valid = true ∧ s2.k = s1.k ∧ s2.n = s1.n ∧ s2.ctr0.toNat = s1.ctr0.toNat + 1 ∧
      s1.len = 64 * 1 + s2.len ∧ 0 < s2.len ∧ (∀ p, p < s2.len → s2.inMem.read p = s1.inMem.read (64 * 1 + p)) ∧
      s1.ctr0.toNat + (s1.len + 63) / 64 ≤ 2 ^ 32 ∧ s1.outMem.wf = true ∧ s2.outMem.wf = true :=
  ⟨{ withContext 1 66 with inMem := [(64, 0x40), (65, 0x41)] }, { withContext 2 2 with inMem := [(0, 0x40), (1, 0x41)] },
    rfl, rfl, rfl, rfl, by decide, by decide, by decide, by decide, by decide, rfl, rfl⟩

/-- Two states that differ in every scratch register W and B. -/
theorem witness_CipherCarriesNoState :
    ∃ s s' : State, SameContext s s' ∧ SameText s s' ∧ SameOut s s' ∧ s'.len = s.len ∧ s.outMem.wf = true ∧
      s'.outMem.wf = true ∧ s.w ≠ s'.w ∧ s.valid = true :=
  ⟨withContext 1 65, { withContext 1 65 with w := wA, b := bA }, ⟨rfl, rfl, rfl, rfl⟩, fun _ => rfl, fun _ => rfl, rfl, rfl,
    rfl, by decide, rfl⟩

theorem witness_OneBlockCipherByHand :
    (∃ s : State, s.valid = true ∧ s.ctrArg = s.ctr0 ∧ 0 < s.len ∧ s.len = 64) ∧
      ∃ s : State, s.valid = true ∧ s.ctrArg = s.ctr0 ∧ 0 < s.len ∧ s.len = 1 :=
  ⟨⟨{ withContext 1 64 with ctrArg := 1 }, rfl, rfl, by decide, by decide⟩,
    { withContext 1 1 with ctrArg := 1 }, rfl, rfl, by decide, by decide⟩

theorem witness_KeystreamSequence :
    ∃ s : State, s.cmd = none ∧ s.valid = true ∧ s.inputs = keystreamInputs 0xffffffff :=
  ⟨{ withContext 1 0 with inputs := keystreamInputs 0xffffffff }, rfl, rfl, rfl⟩

theorem witness_ContextImmutable :
    (∃ t, Instr.copy ≠ .construct ∧ exec .copy State.reset = .next t) ∧ (∃ t, step State.reset = .next t) ∧
      (∃ t, step (running 0x01 [.read 0x004 .word]) = .next t) ∧ ∃ t, step (running 0x01 [.wait]) = .next t :=
  ⟨⟨_, by decide, rfl⟩, ⟨_, rfl⟩, ⟨_, rfl⟩, _, rfl⟩

/-- A command of each of the frame's clauses. -/
theorem witness_CommandFrames :
    ∀ i ∈ [Instr.copy, .addstate, .serialize, .combine, .initstate, .construct],
      seen (exec i State.reset) (fun t => t.outMem.wf) = some true := by decide

theorem witness_ErrorsArePrecise :
    ∃ t, exec .initstate State.reset = .next t ∧ t.result ≠ 0 := ⟨_, rfl, by decide⟩

theorem witness_RaiseEntry : ∃ t, exec .construct State.reset = .next t ∧ t.result ≠ 0 := ⟨_, rfl, by decide⟩

theorem witness_ErrorsByCommand : ∃ t, exec .cipher State.reset = .next t ∧ t.result = 6 := ⟨_, rfl, by decide⟩

theorem witness_FaultLogSticky :
    ∃ s t : State, (∀ rest, s.inputs ≠ .reset :: rest) ∧ step s = .next t ∧ t.faultLog = 0x80 :=
  ⟨running 7 [], _, fun _ h => (by cases h), rfl, by decide⟩

theorem witness_InvKeptByStep : ∃ s t : State, s.Inv ∧ s.cmd = some 0x10 ∧ step s = .next t :=
  ⟨running 0x10 [], _, ⟨⟨rfl, rfl⟩, ⟨rfl, rfl⟩, ⟨rfl, rfl⟩, rfl, .inl rfl⟩, rfl, rfl⟩

end Sys2Proof.Tests
end

section
/-! The platform's reset: what it does to the registers, IN and OUT (R26, R120). -/

namespace Sys2Proof.Machine

/-- R26's list read off the reset state: the vectors element by element, the scalar registers by evaluation. -/
theorem State.reset_zeroed : State.reset.Zeroed := by
  have zero {n k : Nat} (i : Fin n) : (Vector.replicate n (0 : BitVec k))[i] = 0 := Vector.getElem_replicate i.isLt
  exact ⟨fun i => ⟨zero i, zero i, zero i⟩, zero, zero, zero, zero, zero, by decide⟩

/-- The reset keeps of the old state only fields that are no registers, so the registers are those of `State.reset`. -/
theorem State.resetCore_zeroed (s : State) : s.resetCore.Zeroed := State.reset_zeroed

theorem State.hostReset_zeroed (s : State) : s.hostReset.Zeroed := State.resetCore_zeroed _

theorem State.usingMessages_of_cmd_none {s : State} (h : s.cmd = none) : s.usingMessages = false := by
  rw [State.usingMessages, h]

/-- A reset that abandons neither CIPHER nor COMBINE leaves OUT alone (R120). -/
theorem State.outAfterReset_of_not_usingMessages {s : State} (h : s.usingMessages = false) : s.outAfterReset = s.outMem := by
  simp [State.outAfterReset, h]

@[simp] theorem State.hostReset_inMem (s : State) : s.hostReset.inMem = s.inMem := by
  simp [State.hostReset]

@[simp] theorem State.hostReset_outMem (s : State) : s.hostReset.outMem = s.outAfterReset := by
  simp [State.hostReset]

/-- The step that takes the platform's reset always answers a next state (R120). -/
theorem step_reset {s : State} {rest : List Input} (h : s.inputs = .reset :: rest) :
    step s = .next (s.takeInput rest).hostReset := by
  rw [step_host h, State.interact]

/-- Settles O16: `State.hostReset` zeroes every register in any state, and an idle CORE abandons no command that writes OUT. -/
theorem resetValues : Obligations.ResetValues := by
  refine ⟨State.reset_zeroed, fun s rest hcmd hinputs => ?_⟩
  have hidle : (s.takeInput rest).usingMessages = false := State.usingMessages_of_cmd_none (by simpa using hcmd)
  refine ⟨_, step_reset hinputs, State.hostReset_zeroed _, ?_, ?_⟩
  · simp
  · simp [State.outAfterReset_of_not_usingMessages hidle]

end Sys2Proof.Machine
end

section
/-! Illegal command words: what the decoder rejects, read over the naturals (R45, R46, R49). -/

namespace Sys2Proof

/-- A field of a command word as a number (R45). -/
theorem toNat_field (cw : Word) (start len : Nat) : (cw.extractLsb' start len).toNat = cw.toNat / 2 ^ start % 2 ^ len := by
  rw [BitVec.extractLsb'_toNat, Nat.shiftRight_eq_div_pow]

/-- A field that reaches up to bit 31 is 0 exactly when the word has no bit from its start on. -/
theorem field_eq_zero_iff {cw : Word} {start len : Nat} (h : start + len = 32) :
    cw.extractLsb' start len = 0 ↔ cw.toNat / 2 ^ start = 0 := by
  have hlt : cw.toNat / 2 ^ start < 2 ^ len := Nat.div_lt_of_lt_mul (by rw [← pow_add, h]; exact cw.isLt)
  rw [← BitVec.toNat_inj, toNat_field, Nat.mod_eq_of_lt hlt, BitVec.ofNat_eq_ofNat, BitVec.toNat_ofNat, Nat.zero_mod]

/-- The format N table has no row for exactly these codes (R46). -/
theorem formatN_eq_none_iff (op : BitVec 8) :
    formatN op = none ↔ op.toNat ∉ [0x01, 0x02, 0x03, 0x04, 0x05, 0x06, 0x10, 0x12] := by
  revert op
  decide

theorem pairwiseDistinct_iff_nodup (a b c d : WIndex) : PairwiseDistinct a b c d ↔ [a.val, b.val, c.val, d.val].Nodup := by
  simp [PairwiseDistinct, Fin.ext_iff, and_assoc]

/-- A check before a command is accepted rejects exactly what fails it. -/
theorem exists_ite_eq_error_iff (p : Prop) [Decidable p] (i : Instr) (r : Illegal) :
    (∃ e, (if p then .ok i else .error r : Except Illegal Instr) = .error e) ↔ ¬ p := by
  by_cases h : p <;> simp [h]

/-- Format Q rejects a word for its top byte or for a repeated index, and for nothing else (R47, R49). -/
theorem decodeQ_error_iff (cw : Word) :
    (∃ e, decodeQ cw = .error e) ↔
      cw.toNat / 2 ^ 24 ≠ 0 ∨
        ¬ [cw.toNat / 2 ^ 8 % 16, cw.toNat / 2 ^ 12 % 16, cw.toNat / 2 ^ 16 % 16, cw.toNat / 2 ^ 20 % 16].Nodup := by
  have index (start : Nat) : (cw.extractLsb' start 4).toFin.val = cw.toNat / 2 ^ start % 16 := toNat_field cw start 4
  rw [← index 8, ← index 12, ← index 16, ← index 20, ← pairwiseDistinct_iff_nodup, ne_eq,
    ← field_eq_zero_iff (len := 8) rfl]
  by_cases htop : cw.extractLsb' 24 8 = 0
  · rw [decodeQ, if_neg (not_not.mpr htop), or_iff_right (not_not.mpr htop)]
    exact exists_ite_eq_error_iff _ _ _
  · rw [decodeQ, if_pos htop]
    exact iff_of_true ⟨_, rfl⟩ (.inl htop)

/-- A word of another format is rejected for its code or for a bit above it, and for nothing else (R49). -/
theorem decode_error_iff_of_not_q {cw : Word} (h : cw.extractLsb' 0 8 ≠ 0x11) :
    (∃ e, decode cw = .error e) ↔ formatN (cw.extractLsb' 0 8) = none ∨ cw.toNat / 2 ^ 8 ≠ 0 := by
  rw [ne_eq, ← field_eq_zero_iff (len := 24) rfl, decode, if_neg h]
  cases formatN (cw.extractLsb' 0 8) with
  | none => simp
  | some i => exact (exists_ite_eq_error_iff _ _ _).trans (by simp)

/-- R49's list of the illegal words. -/
theorem decode_error_iff (cw : Word) :
    (∃ e, decode cw = .error e) ↔
      (cw.toNat % 2 ^ 8 ∉ [0x01, 0x02, 0x03, 0x04, 0x05, 0x06, 0x10, 0x11, 0x12]) ∨
      (cw.toNat % 2 ^ 8 ≠ 0x11 ∧ cw.toNat / 2 ^ 8 ≠ 0) ∨
      (cw.toNat % 2 ^ 8 = 0x11 ∧ cw.toNat / 2 ^ 24 ≠ 0) ∨
      (cw.toNat % 2 ^ 8 = 0x11 ∧
        ¬ [cw.toNat / 2 ^ 8 % 16, cw.toNat / 2 ^ 12 % 16, cw.toNat / 2 ^ 16 % 16, cw.toNat / 2 ^ 20 % 16].Nodup) := by
  have op : (cw.extractLsb' 0 8).toNat = cw.toNat % 2 ^ 8 := by rw [toNat_field, pow_zero, Nat.div_one]
  by_cases hq : cw.extractLsb' 0 8 = 0x11
  · have hop : cw.toNat % 2 ^ 8 = 0x11 := by rw [← op, hq]; rfl
    rw [decode, if_pos hq, decodeQ_error_iff, hop]
    simp
  · have hop : cw.toNat % 2 ^ 8 ≠ 0x11 := fun h => hq (BitVec.eq_of_toNat_eq (op.trans h))
    rw [decode_error_iff_of_not_q hq, formatN_eq_none_iff, op]
    generalize cw.toNat % 2 ^ 8 = n at hop
    simp [hop]

end Sys2Proof
end

section
/-! What `raise` does to RESULT, FAULTLOG and the sequencer, and what it leaves unchanged (R107). -/

namespace Sys2Proof.Machine

/-- An error's FAULTLOG bit is the one its code numbers (R14, R100). -/
@[simp] theorem CmdError.getLsbD_bit (e : CmdError) (i : Nat) : e.bit.getLsbD i = (i == e.code.toNat) := by
  have hcode : e.code.toNat < 16 := e.code.isLt
  rw [CmdError.bit, BitVec.getLsbD_shiftLeft, BitVec.getLsbD_one, Bool.eq_iff_iff]
  simp only [Nat.ofNat_pos, decide_true, Bool.true_and, Bool.and_eq_true, decide_eq_true_eq, Bool.not_eq_eq_eq_not,
    Bool.not_true, decide_eq_false_iff_not, not_lt, beq_iff_eq]
  omega

/-- A raised error ends the command in that error. -/
theorem State.raise_failed (s : State) (e : CmdError) : Failed e s (s.raise e) :=
  ⟨by simp, by simp, by simp [State.Idle]⟩

theorem State.raise_sameContext (s : State) (e : CmdError) : SameContext s (s.raise e) := by
  simp [SameContext]

theorem State.raise_sameSurroundings (s : State) (e : CmdError) : SameSurroundings s (s.raise e) := by
  simp [SameSurroundings, SameOperands, SameText, SameHost]

theorem State.raise_sameOut (s : State) (e : CmdError) : SameOut s (s.raise e) := by
  simp [SameOut]

/-- With no interaction of the host pending, an illegal word being executed raises IllegalCommand (R106). -/
theorem step_illegal {s : State} {cw : Word} {e : Illegal} (hcmd : s.cmd = some cw) (hinputs : s.inputs = [])
    (hdecode : decode cw = .error e) : step s = .next (s.raise .illegalCommand) :=
  (step_core hinputs).trans (State.runCommand_illegal hcmd hdecode)

/-- Settles O4: `decode_error_iff` is R49's list, and the step of an illegal word is `raise`. -/
theorem illegalWords : Obligations.IllegalWords := by
  refine fun cw => ⟨decode_error_iff cw, fun s hcmd hinputs ⟨e, hdecode⟩ => ?_⟩
  exact ⟨s.raise .illegalCommand, step_illegal hcmd hinputs hdecode, s.raise_failed _, s.raise_sameContext _,
    s.raise_sameSurroundings _, s.raise_sameOut _, s.raise_s _, s.raise_w _, s.raise_b _, s.raise_ks _⟩

end Sys2Proof.Machine
end

section
/-! What a command's answer keeps, read off `exec_cases`: the surroundings in every case, FAULTLOG where it succeeds (R13, R16,
R17, R32). -/

namespace Sys2Proof.Machine

theorem CmdError.code_ne_zero (e : CmdError) : e.code ≠ 0 := by
  cases e <;> decide

/-- The end of an effect that keeps its surroundings keeps them too. -/
theorem KeepsSurroundings.finish {s u : State} (h : KeepsSurroundings s u) (code : BitVec 4) :
    SameSurroundings s (u.finish code) := by
  obtain ⟨operands, text, -, host⟩ := h
  exact ⟨operands, fun a => congrArg (Memory.read · a) text, host⟩

/-- The end of such an effect with code 0 is a success. -/
theorem KeepsSurroundings.succeeded {s u : State} (h : KeepsSurroundings s u) : Succeeded s (u.finish 0) :=
  ⟨by simp, by simp [h.log], by simp [State.Idle]⟩

/-- No command changes the operands, IN, or the host's side (R16, R17, R32). -/
theorem exec_sameSurroundings {i : Instr} {s t : State} (h : exec i s = .next t) : SameSurroundings s t := by
  rcases exec_cases i s with ⟨e, -, he⟩ | ⟨e, -, -, he⟩ | ⟨u, he, hu, -⟩ <;> rw [he] at h <;> cases h
  · exact s.raise_sameSurroundings e
  · exact s.invalidate.raise_sameSurroundings e
  · exact hu.finish 0

/-- A command that ends with RESULT 0 has raised nothing. -/
theorem exec_succeeded {i : Instr} {s t : State} (h : exec i s = .next t) (hr : t.result = 0) : Succeeded s t := by
  rcases exec_cases i s with ⟨e, -, he⟩ | ⟨e, -, -, he⟩ | ⟨u, he, hu, -⟩ <;> rw [he] at h <;> cases h
  · exact absurd hr (by simpa using e.code_ne_zero)
  · exact absurd hr (by simpa using e.code_ne_zero)
  · exact hu.succeeded

end Sys2Proof.Machine
end

section
/-! The context is immutable: which commands and which steps keep K, N, CTR0 and VALID (R64). -/

namespace Sys2Proof.Machine

theorem SameContext.trans {s t u : State} (hst : SameContext s t) (htu : SameContext t u) : SameContext s u := by
  obtain ⟨hk, hn, hctr, hvalid⟩ := hst
  obtain ⟨hk', hn', hctr', hvalid'⟩ := htu
  exact ⟨hk'.trans hk, hn'.trans hn, hctr'.trans hctr, hvalid'.trans hvalid⟩

theorem State.finish_sameContext (s : State) (code : BitVec 4) : SameContext s (s.finish code) := by
  simp [SameContext]

theorem State.startCipher_sameContext (s : State) : SameContext s s.startCipher := by
  simp [SameContext, State.startCipher]

theorem State.cipherBlocks_sameContext (n : Nat) (s : State) : SameContext s (State.cipherBlocks n s) := by
  obtain ⟨hk, hn, hctr, hvalid, -⟩ := State.cipherBlocks_frame n s
  exact ⟨hk, hn, hctr, hvalid⟩

/-- Every command but CONSTRUCT answers a next state with the same context. -/
theorem exec_next_sameContext {i : Instr} (hi : i ≠ .construct) (s : State) : ∃ t, exec i s = .next t ∧ SameContext s t := by
  cases i with
  | construct => exact absurd rfl hi
  | initstate =>
    cases hv : s.valid with
    | false => exact ⟨_, exec_initstate_noContext hv, s.raise_sameContext _⟩
    | true => exact ⟨_, exec_initstate_ok hv, by simp [SameContext]⟩
  | block => exact ⟨_, exec_block s, by simp [SameContext, State.transform_eq]⟩
  | serialize => exact ⟨_, exec_serialize s, by simp [SameContext]⟩
  | combine =>
    rcases Nat.lt_or_ge 64 s.len with hlen | hlen
    · exact ⟨_, exec_combine_long hlen, s.raise_sameContext _⟩
    · exact ⟨_, exec_combine_ok hlen, by simp [SameContext]⟩
  | cipher =>
    cases hv : s.valid with
    | false => exact ⟨_, exec_cipher_noContext hv, s.raise_sameContext _⟩
    | true =>
      cases ho : counterOverflows s.ctr0 s.len with
      | true => exact ⟨_, exec_cipher_overflow hv ho, s.raise_sameContext _⟩
      | false =>
        refine ⟨_, exec_cipher_ok hv ho, SameContext.trans ?_ (State.finish_sameContext _ _)⟩
        exact s.startCipher_sameContext.trans (State.cipherBlocks_sameContext _ _)
  | copy => exact ⟨_, exec_copy s, by simp [SameContext]⟩
  | qround a b c d =>
    by_cases hdistinct : PairwiseDistinct a b c d
    · exact ⟨_, exec_qround_ok hdistinct s, by simp [SameContext]⟩
    · exact ⟨_, exec_qround_repeated hdistinct s, s.raise_sameContext _⟩
  | addstate => exact ⟨_, exec_addstate s, by simp [SameContext]⟩

theorem exec_sameContext {i : Instr} {s t : State} (hi : i ≠ .construct) (h : exec i s = .next t) : SameContext s t := by
  obtain ⟨u, hu, hsame⟩ := exec_next_sameContext hi s
  rw [hu] at h
  cases h
  exact hsame

/-- A CMD word run to its end keeps the context, unless it is CONSTRUCT's. -/
theorem State.runCommand_sameContext {s t : State} (h : s.runCommand = .next t) :
    SameContext s t ∨ ∃ cw, s.cmd = some cw ∧ decode cw = .ok .construct := by
  cases hcmd : s.cmd with
  | none =>
    rw [State.runCommand_idle hcmd] at h
    cases h
    exact .inl ⟨rfl, rfl, rfl, rfl⟩
  | some cw =>
    cases hdecode : decode cw with
    | error e =>
      rw [State.runCommand_illegal hcmd hdecode] at h
      cases h
      exact .inl (s.raise_sameContext _)
    | ok i =>
      rw [State.runCommand_legal hcmd hdecode] at h
      by_cases hi : i = .construct
      · exact .inr ⟨cw, rfl, by rw [hdecode, hi]⟩
      · exact .inl (exec_sameContext hi h)

/-- A window write that is not refused is an idle CORE's, of one register the host may write (R22, R125). -/
theorem State.hostWrite_next {s t : State} {off : Nat} {size : AccessSize} {v : Word} (h : s.hostWrite off size v = .next t) :
    ∃ reg, windowAccess off size = .ok reg ∧ s.busy = false ∧ s.writeReg v reg = some t := by
  cases hacc : windowAccess off size with
  | error r => simp [State.hostWrite, hacc] at h
  | ok reg =>
    cases hbusy : s.busy with
    | true => simp [State.hostWrite, hacc, hbusy] at h
    | false =>
      cases hwrite : s.writeReg v reg with
      | none => simp [State.hostWrite, hacc, hbusy, hwrite] at h
      | some u =>
        obtain rfl : u = t := by simpa [State.hostWrite, hacc, hbusy, hwrite] using h
        exact ⟨reg, rfl, rfl, hwrite⟩

/-- A window read that is not refused answers one register's value, STATUS's alone while `BUSY = 1` (R125, R133). -/
theorem State.hostRead_next {s t : State} {off : Nat} {size : AccessSize} (h : s.hostRead off size = .next t) :
    ∃ reg v, windowAccess off size = .ok reg ∧ (s.busy = true → reg = .status) ∧ s.readReg reg = some v ∧
      t = s.answer (.word v) (if s.busy then 1 else 0) := by
  cases hacc : windowAccess off size with
  | error r => simp [State.hostRead, hacc] at h
  | ok reg =>
    by_cases hbusy : s.busy = true ∧ reg ≠ .status
    · simp [State.hostRead, hacc, hbusy] at h
    · cases hread : s.readReg reg with
      | none => simp [State.hostRead, hacc, if_neg hbusy, hread] at h
      | some v =>
        simp only [State.hostRead, hacc, if_neg hbusy, hread] at h
        cases h
        exact ⟨reg, v, rfl, fun hb => not_not.mp fun hr => hbusy ⟨hb, hr⟩, hread, rfl⟩

/-- A message access that is not refused is an idle CORE's and takes place (R39). -/
theorem State.hostMessage_next {s t u : State} {addr : BitVec 64} (h : s.hostMessage addr u = .next t) :
    s.busy = false ∧ t = u := by
  cases hbusy : s.busy with
  | true => simp [State.hostMessage, hbusy] at h
  | false => exact ⟨rfl, by simpa [State.hostMessage, hbusy, eq_comm] using h⟩

/-- The context's registers are read-only for the host (R18, R22). -/
theorem State.writeReg_sameContext {s t : State} {v : Word} {reg : WindowReg} (h : s.writeReg v reg = some t) :
    SameContext s t := by
  cases reg <;> cases h <;> exact ⟨rfl, rfl, rfl, rfl⟩

/-- An interaction of the host changes the context only by a reset, or by waiting for a CONSTRUCT to end. -/
theorem State.interact_sameContext {s t : State} {i : Input} (h : s.interact i = .next t) :
    SameContext s t ∨ i = .reset ∨ (i = .wait ∧ ∃ cw, s.cmd = some cw ∧ decode cw = .ok .construct) := by
  cases i with
  | write off size v =>
    obtain ⟨_, -, -, hwrite⟩ := State.hostWrite_next h
    exact .inl (State.writeReg_sameContext hwrite)
  | read off size =>
    obtain ⟨_, _, -, -, -, rfl⟩ := State.hostRead_next h
    exact .inl (by simp [SameContext])
  | writeIn addr v =>
    obtain ⟨-, rfl⟩ := State.hostMessage_next h
    exact .inl (by simp [SameContext])
  | writeOut addr v =>
    obtain ⟨-, rfl⟩ := State.hostMessage_next h
    exact .inl (by simp [SameContext])
  | readOut addr =>
    obtain ⟨-, rfl⟩ := State.hostMessage_next h
    exact .inl (by simp [SameContext])
  | wait => exact (State.runCommand_sameContext h).imp_right fun hc => .inr ⟨rfl, hc⟩
  | reset => exact .inr (.inl rfl)

/-- Settles O50: `exec_sameContext` for a command; for a step, `State.runCommand_sameContext` when the host has no interaction
pending and `State.interact_sameContext` when it has one. -/
theorem contextImmutable : Obligations.ContextImmutable := by
  refine ⟨fun i s t hi h => exec_sameContext hi h, fun s t h => ?_⟩
  cases hinputs : s.inputs with
  | nil =>
    rw [step_core hinputs] at h
    exact (State.runCommand_sameContext h).imp_right fun hc => .inr ⟨hc, .inl rfl⟩
  | cons i rest =>
    rw [step_host hinputs] at h
    rcases State.interact_sameContext h with hsame | rfl | ⟨rfl, hc⟩
    · exact .inl (by simpa [SameContext] using hsame)
    · exact .inr (.inl ⟨rest, rfl⟩)
    · exact .inr (.inr ⟨by simpa using hc, .inr ⟨rest, rfl⟩⟩)

end Sys2Proof.Machine
end

section
/-! PACK_LE over the naturals: a word is the sum of its bytes' lanes (R60). -/

namespace Sys2Proof.Machine

/-- A byte put into a lane above all of a word's bits adds its value there. -/
theorem toNat_or_lane {x : Word} {k : Nat} (hx : x.toNat < 2 ^ k) (hk : k + 8 ≤ 32) (b : Byte) :
    (x ||| (b.setWidth 32 <<< k)).toNat = x.toNat + b.toNat * 2 ^ k := by
  have hlane : b.toNat * 2 ^ k < 2 ^ 32 := calc
    b.toNat * 2 ^ k < 2 ^ 8 * 2 ^ k := Nat.mul_lt_mul_of_pos_right b.isLt (Nat.two_pow_pos k)
    _ = 2 ^ (k + 8) := by rw [Nat.add_comm, Nat.pow_add]
    _ ≤ 2 ^ 32 := Nat.pow_le_pow_right (by decide) hk
  rw [BitVec.toNat_or, BitVec.toNat_shiftLeft, BitVec.toNat_setWidth_of_le (by decide), Nat.shiftLeft_eq,
    Nat.mod_eq_of_lt hlane, ← Nat.shiftLeft_eq, Nat.or_comm, ← Nat.shiftLeft_add_eq_or_of_lt hx, Nat.add_comm]

theorem packLE_toNat (b0 b1 b2 b3 : Byte) :
    (packLE b0 b1 b2 b3).toNat = b0.toNat + b1.toNat * 2 ^ 8 + b2.toNat * 2 ^ 16 + b3.toNat * 2 ^ 24 := by
  have h0 : (b0.setWidth 32).toNat = b0.toNat := BitVec.toNat_setWidth_of_le (by decide)
  have h1 := toNat_or_lane (x := b0.setWidth 32) (k := 8) (by omega) (by decide) b1
  have h2 := toNat_or_lane (x := b0.setWidth 32 ||| (b1.setWidth 32 <<< 8)) (k := 16) (by omega) (by decide) b2
  have h3 := toNat_or_lane (x := b0.setWidth 32 ||| (b1.setWidth 32 <<< 8) ||| (b2.setWidth 32 <<< 16)) (k := 24)
    (by omega) (by decide) b3
  rw [packLE, h3, h2, h1, h0]

theorem wordOf_toNat {m : Nat} (x : Bytes m) (j : Nat) (h : 4 * j + 3 < m) :
    (wordOf x j h).toNat =
      x[4 * j].toNat + x[4 * j + 1].toNat * 2 ^ 8 + x[4 * j + 2].toNat * 2 ^ 16 + x[4 * j + 3].toNat * 2 ^ 24 :=
  packLE_toNat _ _ _ _

/-- Settles O35: the lanes of PACK_LE do not overlap, so its disjunction is the sum. -/
theorem packLittleEndian : Obligations.PackLittleEndian :=
  ⟨packLE_toNat, fun _ => wordOf_toNat⟩

end Sys2Proof.Machine
end

section
/-! The State Builder's two commands: CONSTRUCT (R62) and INITSTATE (R63). -/

namespace Sys2Proof.Machine

@[simp] theorem getElem_keyWords (x : Bytes 32) (j : Fin 8) : (keyWords x)[j] = wordOf x j.val (by omega) := by
  simp [keyWords]

@[simp] theorem getElem_nonceWords (x : Bytes 12) (j : Fin 3) : (nonceWords x)[j] = wordOf x j.val (by omega) := by
  simp [nonceWords]

/-- CONSTRUCT's failure is the raised error: clearing VALID first adds nothing to RESULT or FAULTLOG. -/
theorem State.invalidate_raise_failed (s : State) (e : CmdError) : Failed e s (s.invalidate.raise e) := by
  simpa [Failed] using s.invalidate.raise_failed e

/-- CONSTRUCT writes the context, RESULT, FAULTLOG and BUSY only (R62 "Writes"). -/
theorem exec_construct_frame {s t : State} (h : exec .construct s = .next t) :
    SameSurroundings s t ∧ SameOut s t ∧ t.s = s.s ∧ t.w = s.w ∧ t.b = s.b ∧ t.ks = s.ks := by
  refine ⟨exec_sameSurroundings h, ?_⟩
  by_cases hkey : s.keyLen = 32
  · by_cases hnonce : s.nonceLen = 12
    · rw [exec_construct_ok hkey hnonce] at h
      cases h
      simp [SameOut]
    · rw [exec_construct_badNonce hkey hnonce] at h
      cases h
      simp [SameOut]
  · rw [exec_construct_badKey hkey] at h
    cases h
    simp [SameOut]

/-- Settles O21: the three cases of R62 by their equations, the words by `wordOf_toNat`, the frame by `exec_construct_frame`. -/
theorem constructCommand : Obligations.ConstructCommand := by
  refine ⟨by decide, fun s => ?_⟩
  by_cases hkey : s.keyLen = 32
  · by_cases hnonce : s.nonceLen = 12
    · have hexec := exec_construct_ok hkey hnonce
      refine ⟨_, hexec, absurd hkey, fun _ => absurd hnonce, fun _ _ => ?_, exec_construct_frame hexec⟩
      refine ⟨exec_succeeded hexec (by simp), by simp, by simp, fun j => ?_, fun j => ?_⟩
      · simp only [State.finish_k, State.setContext_k, getElem_keyWords, wordOf_toNat]
      · simp only [State.finish_n, State.setContext_n, getElem_nonceWords, wordOf_toNat]
    · have hexec := exec_construct_badNonce hkey hnonce
      refine ⟨_, hexec, absurd hkey, fun _ _ => ?_, fun _ h => absurd h hnonce, exec_construct_frame hexec⟩
      exact ⟨s.invalidate_raise_failed _, by simp, by simp, by simp, by simp⟩
  · have hexec := exec_construct_badKey hkey
    refine ⟨_, hexec, fun _ => ?_, fun h => absurd h hkey, fun h => absurd h hkey, exec_construct_frame hexec⟩
    exact ⟨s.invalidate_raise_failed _, by simp, by simp, by simp, by simp⟩

/-- Words 4 to 11 of the State are the key (R61). -/
theorem getElem_buildState_key (k : Words 8) (n : Words 3) (ctr : Word) (j : Fin 8) :
    (buildState k n ctr)[4 + j.val] = k[j] := by
  fin_cases j <;> rfl

/-- Words 13 to 15 of the State are the nonce (R61). -/
theorem getElem_buildState_nonce (k : Words 8) (n : Words 3) (ctr : Word) (j : Fin 3) :
    (buildState k n ctr)[13 + j.val] = n[j] := by
  fin_cases j <;> rfl

/-- INITSTATE writes S, RESULT, FAULTLOG and BUSY only (R63 "Writes"). -/
theorem exec_initstate_frame {s t : State} (h : exec .initstate s = .next t) :
    SameContext s t ∧ SameSurroundings s t ∧ SameOut s t ∧ t.w = s.w ∧ t.b = s.b ∧ t.ks = s.ks := by
  refine ⟨exec_sameContext (by decide) h, exec_sameSurroundings h, ?_⟩
  cases hvalid : s.valid with
  | false =>
    rw [exec_initstate_noContext hvalid] at h
    cases h
    simp [SameOut]
  | true =>
    rw [exec_initstate_ok hvalid] at h
    cases h
    simp [SameOut]

/-- Settles O22: the two cases of R63 by their equations, the layout by `buildState`'s words, the frame by
`exec_initstate_frame`. -/
theorem initstateCommand : Obligations.InitstateCommand := by
  refine ⟨by decide, fun s => ?_⟩
  cases hvalid : s.valid with
  | false =>
    have hexec := exec_initstate_noContext hvalid
    exact ⟨_, hexec, fun _ => ⟨s.raise_failed _, by simp⟩, fun h => absurd h (by decide), exec_initstate_frame hexec⟩
  | true =>
    have hexec := exec_initstate_ok hvalid
    refine ⟨_, hexec, fun h => absurd h (by decide), fun _ => ?_, exec_initstate_frame hexec⟩
    exact ⟨exec_succeeded hexec (by simp), rfl, rfl, rfl, rfl, getElem_buildState_key _ _ _, rfl,
      getElem_buildState_nonce _ _ _⟩

end Sys2Proof.Machine
end

section
/-! The Block Transform's arithmetic: ROTL32 (R65), word-wise addition (R73), and the registers of a quarter-round (R66, R72). -/

namespace Sys2Proof.Machine

/-- R65's formula: below bit `n` stand the bits shifted out at the top, from bit `n` on the others. -/
theorem rotl32_toNat (x : Word) {n : Nat} (hn : n < 32) :
    (rotl32 x n).toNat = x.toNat * 2 ^ n % 2 ^ 32 + x.toNat / 2 ^ (32 - n) := by
  have hsplit : 2 ^ 32 = 2 ^ (32 - n) * 2 ^ n := by rw [← pow_add, Nat.sub_add_cancel hn.le]
  have hlow : x.toNat / 2 ^ (32 - n) < 2 ^ n := Nat.div_lt_of_lt_mul (hsplit ▸ x.isLt)
  have hhigh : x.toNat * 2 ^ n % 2 ^ 32 = (x.toNat % 2 ^ (32 - n)) <<< n := by
    rw [hsplit, Nat.mul_mod_mul_right, Nat.shiftLeft_eq]
  rw [rotl32, BitVec.toNat_rotateLeft, Nat.mod_eq_of_lt hn, Nat.shiftLeft_eq, Nat.shiftRight_eq_div_pow, hhigh,
    Nat.shiftLeft_add_eq_or_of_lt hlow]

/-- Bit `i` becomes bit `(i + n) mod 32` (R65). -/
theorem rotl32_getLsbD (x : Word) {n i : Nat} (hn : n < 32) (hi : i < 32) :
    (rotl32 x n).getLsbD ((i + n) % 32) = x.getLsbD i := by
  rw [rotl32, BitVec.getLsbD_rotateLeft, Nat.mod_eq_of_lt hn]
  rcases Nat.lt_or_ge (i + n) 32 with h | h
  · have hpos : (i + n) % 32 = i + n := Nat.mod_eq_of_lt h
    have hkept : ¬ i + n < n := by omega
    simp [hpos, hkept, h]
  · have hpos : (i + n) % 32 = i + n - 32 := by omega
    have hwrapped : i + n - 32 < n := by omega
    have hback : 32 - n + (i + n - 32) = i := by omega
    simp [hpos, hwrapped, hback]

theorem rotl32_zero (x : Word) : rotl32 x 0 = x :=
  BitVec.eq_of_toNat_eq ((rotl32_toNat x (by decide)).trans (by omega))

/-- Settles O37: the formula and the bit law hold below 32, the identity is the library's, the vector is evaluated. -/
theorem rotateLeft : Obligations.RotateLeft :=
  ⟨fun x _ _ hn => ⟨rotl32_toNat x (by omega), fun _ => rotl32_getLsbD x (by omega)⟩, rotl32_zero, by decide⟩

/-- Each word of a sum wraps on its own (R73). -/
theorem toNat_getElem_addWords (x y : Words 16) (i : Fin 16) :
    (addWords x y)[i].toNat = (x[i].toNat + y[i].toNat) % 2 ^ 32 := by
  simp [addWords]

/-- With distinct indices each of the four registers takes its own word of the quarter-round (R72). -/
theorem getElem_quarterRoundAt_indices {a b c d : WIndex} (h : PairwiseDistinct a b c d) (w : Words 16) :
    let q := quarterRound { a := w[a], b := w[b], c := w[c], d := w[d] }
    let v := quarterRoundAt w a b c d
    v[a] = q.a ∧ v[b] = q.b ∧ v[c] = q.c ∧ v[d] = q.d := by
  obtain ⟨hab, hac, had, hbc, hbd, hcd⟩ := h
  simp [getElem_quarterRoundAt, hab.symm, hac.symm, had.symm, hbc.symm, hbd.symm, hcd.symm]

/-- The other twelve registers keep their words (R72). -/
theorem getElem_quarterRoundAt_other (w : Words 16) {a b c d i : WIndex} (ha : i ≠ a) (hb : i ≠ b) (hc : i ≠ c)
    (hd : i ≠ d) : (quarterRoundAt w a b c d)[i] = w[i] := by
  simp [getElem_quarterRoundAt, ha.symm, hb.symm, hc.symm, hd.symm]

end Sys2Proof.Machine
end

section
/-! Decoding the word of a QROUND (R45, R47, R72). -/

namespace Sys2Proof

/-- A four-bit field that holds an index's value reads as the index (R47). -/
theorem toFin_field_eq {cw : Word} {start : Nat} {a : WIndex} (h : cw.toNat / 2 ^ start % 16 = a.val) :
    (cw.extractLsb' start 4).toFin = a :=
  Fin.ext ((toNat_field cw start 4).trans h)

/-- Every QROUND of distinct indices decodes from its own word (R72). -/
theorem decode_encode_qround {a b c d : WIndex} (h : PairwiseDistinct a b c d) :
    decode (encode (.qround a b c d)) = .ok (.qround a b c d) := by
  have hword : (encode (.qround a b c d)).toNat =
      (0x11 + a.val * 2 ^ 8 + b.val * 2 ^ 12 + c.val * 2 ^ 16 + d.val * 2 ^ 20) % 2 ^ 32 := BitVec.toNat_ofNat _ _
  generalize encode (.qround a b c d) = cw at hword ⊢
  have hlow : (cw.extractLsb' 0 8).toNat = 0x11 := (toNat_field cw 0 8).trans (by omega)
  have hop : cw.extractLsb' 0 8 = 0x11 := BitVec.eq_of_toNat_eq hlow
  have htop : cw.extractLsb' 24 8 = 0 := (field_eq_zero_iff rfl).mpr (by omega)
  have ha : (cw.extractLsb' 8 4).toFin = a := toFin_field_eq (by omega)
  have hb : (cw.extractLsb' 12 4).toFin = b := toFin_field_eq (by omega)
  have hc : (cw.extractLsb' 16 4).toFin = c := toFin_field_eq (by omega)
  have hd : (cw.extractLsb' 20 4).toFin = d := toFin_field_eq (by omega)
  rw [decode, if_pos hop, decodeQ, if_neg (not_not.mpr htop)]
  simp only [ha, hb, hc, hd]
  exact if_pos h

end Sys2Proof
end

section
/-! The Block Transform's commands: COPY (R71), QROUND (R72), ADDSTATE (R73), BLOCK (R70, R74, R77). -/

namespace Sys2Proof.Machine

/-- Settles O23: `exec_copy` gives the next state; the context and the surroundings are kept as by every command. -/
theorem copyCommand : Obligations.CopyCommand := by
  refine ⟨by decide, fun s => ?_⟩
  have hexec := exec_copy s
  refine ⟨_, hexec, exec_succeeded hexec (by simp), by simp, exec_sameContext (by decide) hexec,
    exec_sameSurroundings hexec, ?_⟩
  simp [SameOut]

/-- Settles O25: `exec_addstate` gives the next state, `toNat_getElem_addWords` its words. -/
theorem addstateCommand : Obligations.AddstateCommand := by
  refine ⟨by decide, fun s => ?_⟩
  have hexec := exec_addstate s
  refine ⟨_, hexec, exec_succeeded hexec (by simp), fun i => ?_, exec_sameContext (by decide) hexec,
    exec_sameSurroundings hexec, ?_⟩
  · rw [State.finish_b, State.setB_b, toNat_getElem_addWords]
  · simp [SameOut]

/-- QROUND writes W, RESULT, FAULTLOG and BUSY only (R72 "Writes"). -/
theorem exec_qround_frame {a b c d : WIndex} {s t : State} (h : exec (.qround a b c d) s = .next t) :
    SameContext s t ∧ SameSurroundings s t ∧ SameOut s t ∧ t.s = s.s ∧ t.b = s.b ∧ t.ks = s.ks := by
  refine ⟨exec_sameContext (by simp) h, exec_sameSurroundings h, ?_⟩
  by_cases hdistinct : PairwiseDistinct a b c d
  · rw [exec_qround_ok hdistinct] at h
    cases h
    simp [SameOut]
  · rw [exec_qround_repeated hdistinct] at h
    cases h
    simp [SameOut]

/-- Settles O24: the word by `decode_encode_qround`, the two cases of R72 by their equations, the registers by the lemmas about
`quarterRoundAt`, the frame by `exec_qround_frame`. -/
theorem qroundCommand : Obligations.QroundCommand := by
  refine fun a b c d s => ⟨decode_encode_qround, ?_⟩
  by_cases hdistinct : PairwiseDistinct a b c d
  · have hexec := exec_qround_ok hdistinct s
    refine ⟨_, hexec, fun _ => ⟨exec_succeeded hexec (by simp), ?_, fun i ha hb hc hd => ?_⟩, absurd hdistinct,
      exec_qround_frame hexec⟩
    · exact getElem_quarterRoundAt_indices hdistinct s.w
    · exact getElem_quarterRoundAt_other s.w ha hb hc hd
  · have hexec := exec_qround_repeated hdistinct s
    exact ⟨_, hexec, fun h => absurd h hdistinct, fun _ => ⟨s.raise_failed _, s.raise_w _⟩, exec_qround_frame hexec⟩

/-- After BLOCK W is the post-round array of S and B the Block of S (R70). -/
theorem exec_block_eq (s : State) :
    exec .block s = .next ((((s.setW (workingOf s.s)).setB (blockOf s.s)).setRnd 0).finish 0) := by
  rw [exec_block, State.transform_eq]

/-- Settles O26: `exec_block_eq` gives the next state, `toNat_getElem_addWords` the words of B. -/
theorem blockCommand : Obligations.BlockCommand := by
  refine ⟨by decide, fun s => ?_⟩
  have hexec := exec_block_eq s
  refine ⟨_, hexec, exec_succeeded hexec (by simp), ?_, fun i => ?_, exec_sameContext (by decide) hexec,
    exec_sameSurroundings hexec, ?_⟩
  · simp [workingOf, nDoubleRounds]
  · simp only [State.finish_b, State.setRnd_b, State.setB_b, State.finish_w, State.setRnd_w, State.setB_w, State.setW_w,
      blockOf, toNat_getElem_addWords]
  · simp [SameOut]

/-- Settles O28: both registers that `exec_block_eq` writes are functions of S. -/
theorem blockIsPure : Obligations.BlockIsPure := by
  refine fun s s' h => ⟨_, _, exec_block_eq s, exec_block_eq s', ?_, ?_⟩
  · simp [h]
  · simp [h]

end Sys2Proof.Machine
end

section
/-! The Serializer's command: SERIALIZE (R80, R81). -/

namespace Sys2Proof.Machine

/-- Byte `k` of a word read over the naturals, least significant first (R60). -/
theorem byteLE_toNat (w : Word) (k : Nat) : (byteLE w k).toNat = w.toNat / 2 ^ (8 * k) % 256 :=
  toNat_field w (8 * k) 8

/-- The words are emitted in index order, four bytes each (R80). -/
theorem getElem_serialize (b : Words 16) (j : Fin 16) (k : Fin 4) :
    (serialize b)[4 * j.val + k.val]'(by omega) = byteLE b[j] k.val := by
  have hword : (4 * j.val + k.val) / 4 = j.val := by omega
  have hlane : (4 * j.val + k.val) % 4 = k.val := by omega
  simp [serialize, hword, hlane]

/-- Settles O29: `exec_serialize` gives the next state, `getElem_serialize` its bytes, `byteLE_toNat` their values. -/
theorem serializeCommand : Obligations.SerializeCommand := by
  refine ⟨by decide, fun s => ?_⟩
  have hexec := exec_serialize s
  refine ⟨_, hexec, exec_succeeded hexec (by simp), fun j k => ?_, exec_sameContext (by decide) hexec,
    exec_sameSurroundings hexec, ?_⟩
  · simp only [State.finish_ks, State.setKs_ks, getElem_serialize, byteLE_toNat]
  · simp [SameOut]

end Sys2Proof.Machine
end

section
/-! The Combiner's command: COMBINE (R83, R84). -/

namespace Sys2Proof.Machine

/-- Inside the keystream the index needs no reduction. -/
theorem keystreamByte_of_lt (ks : Bytes 64) {j : Nat} (hj : j < 64) : keystreamByte ks j = ks[j] := by
  simp only [keystreamByte, Nat.mod_eq_of_lt hj]

/-- Below LEN a successful COMBINE writes text xor keystream (R84 step 2). -/
theorem exec_combine_read_of_lt {s t : State} (h : exec .combine s = .next t) (hw : s.outMem.wf = true) (hlen : s.len ≤ 64)
    {j : Nat} (hj : j < 64) (hlt : j < s.len) : t.outMem.read j = s.inMem.read j ^^^ s.ks[j] := by
  rw [exec_combine_ok hlen] at h
  cases h
  rw [State.finish_outMem, State.setOut_outMem, combineBytes_read _ _ _ _ hw, if_pos (by omega), Nat.sub_zero,
    keystreamByte_of_lt _ hj]

/-- From LEN on a successful COMBINE keeps OUT (R84 "Writes"). -/
theorem exec_combine_read_of_ge {s t : State} (h : exec .combine s = .next t) (hw : s.outMem.wf = true) (hlen : s.len ≤ 64)
    {a : Nat} (ha : s.len ≤ a) : t.outMem.read a = s.outMem.read a := by
  rw [exec_combine_ok hlen] at h
  cases h
  rw [State.finish_outMem, State.setOut_outMem, combineBytes_read _ _ _ _ hw, if_neg (by omega)]

/-- COMBINE writes OUT, RESULT, FAULTLOG and BUSY only (R84 "Writes"). -/
theorem exec_combine_frame {s t : State} (h : exec .combine s = .next t) :
    SameContext s t ∧ SameSurroundings s t ∧ t.s = s.s ∧ t.w = s.w ∧ t.b = s.b ∧ t.ks = s.ks := by
  refine ⟨exec_sameContext (by decide) h, exec_sameSurroundings h, ?_⟩
  rcases Nat.lt_or_ge 64 s.len with hlong | hlen
  · rw [exec_combine_long hlong] at h
    cases h
    simp
  · rw [exec_combine_ok hlen] at h
    cases h
    simp

/-- Settles O30: the two cases of R84 by their equations, OUT by `combineBytes_read`, the frame by `exec_combine_frame`. -/
theorem combineCommand : Obligations.CombineCommand := by
  refine ⟨by decide, fun s hw => ?_⟩
  rcases Nat.lt_or_ge 64 s.len with hlong | hlen
  · have hexec := exec_combine_long hlong
    exact ⟨_, hexec, fun _ => ⟨s.raise_failed _, s.raise_sameOut _⟩, fun h => absurd h hlong.not_ge,
      exec_combine_frame hexec⟩
  · have hexec := exec_combine_ok hlen
    refine ⟨_, hexec, fun h => absurd h hlen.not_gt, fun _ => ?_, exec_combine_frame hexec⟩
    exact ⟨exec_succeeded hexec (by simp), fun _ hj => exec_combine_read_of_lt hexec hw hlen hj,
      fun _ => exec_combine_read_of_ge hexec hw hlen⟩

end Sys2Proof.Machine
end

section
/-! The text's blocks: how `ceil64` and `chunkLen` cut it (R86), and when their counters overflow (R88). -/

namespace Sys2Proof.Machine

/-- The text has a block `i` exactly when it reaches past the block's base (R86). -/
theorem lt_ceil64_iff {len i : Nat} : i < ceil64 len ↔ 64 * i < len := by
  rw [ceil64]
  omega

/-- `m` blocks suffice for a text exactly when they have room for all its bytes. -/
theorem ceil64_le_iff {len m : Nat} : ceil64 len ≤ m ↔ len ≤ 64 * m := by
  rw [← not_lt, lt_ceil64_iff, not_lt]

/-- The offsets of block `i` are the text's offsets whose quotient by 64 is `i` (R86). -/
theorem mem_chunk_iff {len i p : Nat} : 64 * i ≤ p ∧ p < 64 * i + chunkLen len i ↔ p / 64 = i ∧ p < len := by
  rw [chunkLen]
  omega

/-- Settles O41: block `i` exists by `lt_ceil64_iff` and holds the offsets `mem_chunk_iff` gives, so offset `p` lies in block
`p / 64` alone. -/
theorem textPartition : Obligations.TextPartition := by
  refine ⟨rfl, fun len => ⟨fun i hi => ?full, fun hpos => ?last, fun p hp => ?cover, fun p i hi hp => ?inside⟩⟩
  case full =>
    have hnext := lt_ceil64_iff.mp hi
    rw [chunkLen]
    omega
  case last =>
    rw [chunkLen, ceil64]
    omega
  case cover =>
    have hblock : p / 64 < ceil64 len := lt_ceil64_iff.mpr (by omega)
    exact ⟨p / 64, ⟨hblock, mem_chunk_iff.mpr ⟨rfl, hp⟩⟩, fun i ⟨_, hi⟩ => (mem_chunk_iff.mp hi).1.symm⟩
  case inside =>
    have hbase := lt_ceil64_iff.mp hi
    rw [chunkLen] at hp
    omega

/-- A text overflows when it needs more blocks than there are counters from CTR0 on (R88). -/
theorem counterOverflows_iff {c : Word} {len : Nat} : counterOverflows c len = true ↔ 2 ^ 32 - c.toNat < ceil64 len := by
  rw [counterOverflows, decide_eq_true_iff]
  omega

theorem not_counterOverflows_iff {c : Word} {len : Nat} : counterOverflows c len = false ↔ ceil64 len ≤ 2 ^ 32 - c.toNat := by
  rw [← Bool.not_eq_true, counterOverflows_iff, not_lt]

/-- A text is accepted exactly when every block's counter is at most 0xFFFFFFFF (R88). -/
theorem not_counterOverflows_iff_counters {c : Word} {len : Nat} :
    counterOverflows c len = false ↔ ∀ i, i < ceil64 len → c.toNat + i ≤ 0xFFFFFFFF := by
  rw [not_counterOverflows_iff]
  refine ⟨fun h i hi => by omega, fun h => ?_⟩
  by_contra hlong
  have := h (2 ^ 32 - c.toNat) (not_le.mp hlong)
  omega

/-- The longest text accepted under `c` has 64 * (2^32 - c) bytes (R88). -/
theorem not_counterOverflows_iff_len {c : Word} {len : Nat} :
    counterOverflows c len = false ↔ len ≤ 64 * (2 ^ 32 - c.toNat) := by
  rw [not_counterOverflows_iff, ceil64_le_iff]

/-- Settles O33: the three forms of R88's test, and CIPHER's two answers under a context. -/
theorem counterOverflowPolicy : Obligations.CounterOverflowPolicy := by
  refine ⟨fun c len => ⟨counterOverflows_iff, not_counterOverflows_iff_counters, not_counterOverflows_iff_len⟩,
    fun s hvalid => ?_⟩
  rcases Nat.lt_or_ge (64 * (2 ^ 32 - s.ctr0.toNat)) s.len with hlong | hlen
  · have hover : counterOverflows s.ctr0 s.len = true := by
      rw [← Bool.not_eq_false, not_counterOverflows_iff_len, not_le]
      exact hlong
    refine ⟨_, exec_cipher_overflow hvalid hover, fun _ => ?_, fun h => absurd h hlong.not_ge⟩
    exact ⟨s.raise_failed _, s.raise_sameContext _, s.raise_sameSurroundings _, s.raise_sameOut _, s.raise_s _, s.raise_w _,
      s.raise_b _, s.raise_ks _⟩
  · have hexec := exec_cipher_ok hvalid (not_counterOverflows_iff_len.mpr hlen)
    exact ⟨_, hexec, fun h => absurd h hlen.not_gt, fun _ => exec_succeeded hexec (by simp)⟩

end Sys2Proof.Machine
end

section
/-! The two errors of CIPHER and their order (R89, R109), and what every accepted CIPHER has in common. -/

namespace Sys2Proof.Machine

/-- The error CIPHER raises in `s`, if any: NoContext before CounterOverflow (R89 steps 1 and 3). -/
def State.cipherError (s : State) : Option CmdError :=
  if s.valid = false then some .noContext
  else if counterOverflows s.ctr0 s.len then some .counterOverflow
  else none

theorem exec_cipher_of_error {s : State} {e : CmdError} (h : s.cipherError = some e) :
    exec .cipher s = .next (s.raise e) := by
  rw [State.cipherError] at h
  split at h
  case isTrue hvalid =>
    cases h
    exact exec_cipher_noContext hvalid
  case isFalse hvalid =>
    split at h
    case isTrue hover =>
      cases h
      exact exec_cipher_overflow (Bool.eq_true_of_not_eq_false hvalid) hover
    case isFalse => cases h

theorem State.cipherError_eq_none_iff {s : State} :
    s.cipherError = none ↔ s.valid = true ∧ counterOverflows s.ctr0 s.len = false := by
  cases hvalid : s.valid <;> simp [State.cipherError, hvalid]

theorem exec_cipher_of_accepted {s : State} (h : s.cipherError = none) :
    exec .cipher s = .next ((State.cipherBlocks (ceil64 s.len) s.startCipher).finish 0) := by
  obtain ⟨hvalid, hover⟩ := State.cipherError_eq_none_iff.mp h
  exact exec_cipher_ok hvalid hover

/-- Whether CIPHER fails, and how, is decided by the context and LEN alone. -/
theorem State.cipherError_congr {s t : State} (hctx : SameContext s t) (hlen : t.len = s.len) :
    t.cipherError = s.cipherError := by
  obtain ⟨-, -, hctr, hvalid⟩ := hctx
  rw [State.cipherError, State.cipherError, hvalid, hctr, hlen]

/-- An accepted CIPHER ends with RESULT 0. -/
theorem exec_cipher_result {s t : State} (h : exec .cipher s = .next t) (hacc : s.cipherError = none) : t.result = 0 := by
  rw [exec_cipher_of_accepted hacc] at h
  cases h
  simp

@[simp] theorem State.startCipher_s (s : State) : s.startCipher.s = buildState s.k s.n s.ctr0 := by simp [State.startCipher]
@[simp] theorem State.startCipher_w (s : State) : s.startCipher.w = s.w := by simp [State.startCipher]
@[simp] theorem State.startCipher_b (s : State) : s.startCipher.b = s.b := by simp [State.startCipher]
@[simp] theorem State.startCipher_ks (s : State) : s.startCipher.ks = s.ks := by simp [State.startCipher]
@[simp] theorem State.startCipher_ctr0 (s : State) : s.startCipher.ctr0 = s.ctr0 := by simp [State.startCipher]
@[simp] theorem State.startCipher_blk (s : State) : s.startCipher.blk = 0 := by simp [State.startCipher]
@[simp] theorem State.startCipher_inMem (s : State) : s.startCipher.inMem = s.inMem := by simp [State.startCipher]
@[simp] theorem State.startCipher_outMem (s : State) : s.startCipher.outMem = s.outMem := by simp [State.startCipher]

@[simp] theorem State.startCipher_len (s : State) : s.startCipher.len = s.len :=
  State.len_congr (by simp [State.startCipher]) (by simp [State.startCipher])

/-- Word 12 of the State is the counter alone (R61). -/
@[simp] theorem buildState_set_counter (k : Words 8) (n : Words 3) (ctr ctr' : Word) :
    (buildState k n ctr).set 12 ctr' = buildState k n ctr' := rfl

end Sys2Proof.Machine
end

section
/-! The scratch registers after CIPHER (R95). -/

namespace Sys2Proof.Machine

/-- A block of CIPHER leaves in W, B and KS the values of its State (R89 steps 5b and 5c). -/
theorem State.cipherBlock_scratch (s : State) :
    let t := s.cipherBlock
    t.w = workingOf t.s ∧ (∀ i : Fin 16, t.b[i] = t.w[i] + t.s[i]) ∧ t.ks = serialize t.b := by
  simp [State.cipherBlock_eq, blockOf, addWords]

/-- The State after `n + 1` blocks from BLK 0 is the first one with block `n`'s counter (R87). -/
theorem State.cipherBlocks_succ_s (n : Nat) {s : State} (h : s.blk = 0) :
    (State.cipherBlocks (n + 1) s).s = s.s.set 12 (s.ctr0 + BitVec.ofNat 32 n) := by
  obtain ⟨-, -, hctr, -⟩ := State.cipherBlocks_frame n s
  rw [State.cipherBlocks, State.cipherBlock_eq]
  simp [hctr, State.cipherBlocks_blk n h, State.cipherBlocks_patch]

/-- Settles O32: the raised error touches none of the four; the last block sets them by `State.cipherBlock_scratch`; with no
block, step 4 of R89 sets S alone. -/
theorem cipherScratch : Obligations.CipherScratch := by
  intro s
  cases herr : s.cipherError with
  | some e =>
    have hfailed : (s.raise e).result ≠ 0 := by simpa using e.code_ne_zero
    exact ⟨_, exec_cipher_of_error herr, fun h => absurd h hfailed, fun h => absurd h hfailed,
      fun _ => ⟨s.raise_s e, s.raise_w e, s.raise_b e, s.raise_ks e⟩⟩
  | none =>
    have hexec := exec_cipher_of_accepted herr
    refine ⟨_, hexec, fun _ hpos => ?text, fun _ hzero => ?empty, absurd (exec_cipher_result hexec herr)⟩
    case text =>
      obtain ⟨n, hn⟩ : ∃ n, ceil64 s.len = n + 1 := Nat.exists_eq_add_one.mpr (lt_ceil64_iff.mpr hpos)
      have hs := State.cipherBlocks_succ_s n s.startCipher_blk
      obtain ⟨hw, hb, hks⟩ := (State.cipherBlocks n s.startCipher).cipherBlock_scratch
      rw [hn]
      simp only [State.finish_s, State.finish_w, State.finish_b, State.finish_ks, Nat.add_sub_cancel]
      exact ⟨by simpa using hs, hw, hb, hks⟩
    case empty =>
      have hnone : ceil64 s.len = 0 := by rw [hzero]; rfl
      rw [hnone, State.cipherBlocks]
      simp

end Sys2Proof.Machine
end

section
/-! CIPHER's output as a function of the context and the text (R90), and the laws that follow from it (R93, R97). -/

namespace Sys2Proof.Machine

/-- The keystream byte for text offset `p`: byte `p mod 64` of the block computed under counter `ctr0 + p div 64` (R90). -/
def keystreamAt (k : Words 8) (n : Words 3) (ctr0 : Word) (p : Nat) : Byte :=
  keystreamByte (keystreamOf k n (ctr0 + BitVec.ofNat 32 (p / 64))) (p % 64)

/-- Below LEN an accepted CIPHER writes text xor keystream, from LEN on it keeps OUT (R90, R92). -/
theorem exec_cipher_read {s t : State} (h : exec .cipher s = .next t) (hacc : s.cipherError = none)
    (hw : s.outMem.wf = true) (a : Nat) :
    t.outMem.read a =
      if a < s.len then s.inMem.read a ^^^ keystreamAt s.k s.n s.ctr0 a else s.outMem.read a := by
  rw [exec_cipher_of_accepted hacc] at h
  cases h
  have hcount := ceil64_le_of_not_overflow (State.cipherError_eq_none_iff.mp hacc).2
  have hcover : a < 64 * ceil64 s.len ∧ a < s.len ↔ a < s.len := and_iff_right_of_imp fun ha => by rw [ceil64]; omega
  obtain ⟨-, hout⟩ := State.cipherBlocks_out s.startCipher_blk (by simpa using hw) hcount (by simp [ceil64]; omega)
  rw [State.finish_outMem, hout]
  simp [hcover, blockKeystream, keystreamAt, keystreamOf]

/-- Every command keeps the canonical form of OUT. -/
theorem exec_outMem_wf {i : Instr} {s t : State} (h : exec i s = .next t) (hw : s.outMem.wf = true) : t.outMem.wf = true := by
  rcases exec_cases i s with ⟨e, -, he⟩ | ⟨e, -, -, he⟩ | ⟨u, he, -, hu, -⟩ <;> rw [he] at h <;> cases h
  · simpa using hw
  · simpa using hw
  · simpa using hu hw

/-- No command changes LEN (R16). -/
theorem exec_len {i : Instr} {s t : State} (h : exec i s = .next t) : t.len = s.len := by
  obtain ⟨⟨-, -, -, -, -, hlo, hhi⟩, -, -⟩ := exec_sameSurroundings h
  exact State.len_congr hlo hhi

/-- Settles O43: both runs use the keystream of the same context, so the second xor cancels the first. -/
theorem cipherSelfInverse : Obligations.CipherSelfInverse := by
  intro s m hvalid hctr hw
  have hover : counterOverflows s.ctr0 s.len = false := not_counterOverflows_iff.mpr (by rw [ceil64]; omega)
  have hacc : s.cipherError = none := State.cipherError_eq_none_iff.mpr ⟨hvalid, hover⟩
  obtain ⟨t, ht, hctx⟩ := exec_next_sameContext (i := .cipher) (by decide) s
  refine ⟨t, ht, exec_cipher_result ht hacc, fun hcopy => ?_⟩
  have hlen := exec_len ht
  have hacc' : ({ t with inMem := m } : State).cipherError = none := (State.cipherError_congr hctx hlen).trans hacc
  have hw' : t.outMem.wf = true := exec_outMem_wf ht hw
  obtain ⟨u, hu, -⟩ := exec_next_sameContext (i := .cipher) (by decide) { t with inMem := m }
  refine ⟨u, hu, exec_cipher_result hu hacc', fun p hp => ?_⟩
  obtain ⟨hk, hn, hc, -⟩ := hctx
  calc u.outMem.read p
    _ = m.read p ^^^ keystreamAt t.k t.n t.ctr0 p :=
      (exec_cipher_read hu hacc' hw' p).trans (if_pos (hp.trans_eq hlen.symm))
    _ = s.inMem.read p ^^^ keystreamAt s.k s.n s.ctr0 p ^^^ keystreamAt s.k s.n s.ctr0 p := by
      rw [hcopy p hp, exec_cipher_read ht hacc hw, if_pos hp, hk, hn, hc]
    _ = s.inMem.read p := by rw [BitVec.xor_assoc, BitVec.xor_self, BitVec.xor_zero]

/-- Settles O46: the context and LEN decide the error by `State.cipherError_congr`; without one, `exec_cipher_read` gives OUT from
the context, LEN, IN and OUT alone. -/
theorem cipherCarriesNoState : Obligations.CipherCarriesNoState := by
  intro s s' hctx htext hout hlen hw hw'
  have hsame := State.cipherError_congr hctx hlen
  cases herr : s.cipherError with
  | some e =>
    have ht' := exec_cipher_of_error (hsame.trans herr)
    refine ⟨_, _, exec_cipher_of_error herr, ht', by simp, fun a => ?_, s.raise_sameContext e⟩
    rw [State.raise_outMem, State.raise_outMem, hout a]
  | none =>
    have hacc' := hsame.trans herr
    obtain ⟨t, ht, hkept⟩ := exec_next_sameContext (i := .cipher) (by decide) s
    obtain ⟨t', ht', -⟩ := exec_next_sameContext (i := .cipher) (by decide) s'
    obtain ⟨hk, hn, hc, -⟩ := hctx
    refine ⟨t, t', ht, ht', ?_, fun a => ?_, hkept⟩
    · rw [exec_cipher_result ht herr, exec_cipher_result ht' hacc']
    · rw [exec_cipher_read ht herr hw, exec_cipher_read ht' hacc' hw', hlen, hk, hn, hc, htext a, hout a]

end Sys2Proof.Machine
end

section
/-! Errors: NoContext where there is no context (R105), and the raised error as all that a failing command does (R107). -/

namespace Sys2Proof.Machine

/-- A raised error leaves the CORE idle (R107 step 3). -/
@[simp] theorem State.raise_busy (s : State) (e : CmdError) : (s.raise e).busy = false := by
  simp [State.busy]

/-- A command that ends with an error has raised it and done nothing else, but for CONSTRUCT's clearing of VALID. -/
theorem exec_eq_raise {i : Instr} {s t : State} (h : exec i s = .next t) (hr : t.result ≠ 0) :
    ∃ e, t = s.raise e ∨ (i = .construct ∧ t = s.invalidate.raise e) := by
  rcases exec_cases i s with ⟨e, -, he⟩ | ⟨e, -, hi, he⟩ | ⟨u, he, -⟩ <;> rw [he] at h <;> cases h
  · exact ⟨e, .inl rfl⟩
  · exact ⟨e, .inr ⟨hi, rfl⟩⟩
  · exact absurd (u.finish_result 0) hr

/-- Settles O52: the laws of `raise`, and `exec_eq_raise` for a command that ends with an error. -/
theorem raiseEntry : Obligations.RaiseEntry := by
  refine ⟨fun s e => ?_, fun _ _ _ => exec_eq_raise⟩
  exact ⟨s.raise_failed e, s.raise_busy e, s.raise_sameContext e, s.raise_sameSurroundings e, s.raise_sameOut e, s.raise_s e,
    s.raise_w e, s.raise_b e, s.raise_ks e⟩

/-- Without a context both commands are the raised NoContext alone; CIPHER does not look at LEN first (R105, R109). -/
theorem exec_noContext {i : Instr} {s : State} (hvalid : s.valid = false) (hi : i = .initstate ∨ i = .cipher) :
    exec i s = .next (s.raise .noContext) := by
  rcases hi with rfl | rfl
  · exact exec_initstate_noContext hvalid
  · exact exec_cipher_noContext hvalid

/-- Settles O34: by `exec_noContext` the next state is the raised error's, and `raise` keeps all the rest. -/
theorem noContextRaised : Obligations.NoContextRaised := by
  refine fun s i hvalid hi => ⟨_, exec_noContext hvalid hi, ?_⟩
  exact ⟨s.raise_failed _, s.raise_sameContext _, s.raise_sameSurroundings _, s.raise_sameOut _, s.raise_s _, s.raise_w _,
    s.raise_b _, s.raise_ks _⟩

end Sys2Proof.Machine
end

section
/-! The host while a command is being executed: its message accesses are refused (R39, R126), and its reset may abandon the output
of a CIPHER or COMBINE (R120, R124). -/

namespace Sys2Proof.Machine

@[simp] theorem State.takeInput_busy (s : State) (rest : List Input) : (s.takeInput rest).busy = s.busy := by
  simp [State.busy]

@[simp] theorem State.takeInput_len (s : State) (rest : List Input) : (s.takeInput rest).len = s.len :=
  State.len_congr (s.takeInput_lenLo rest) (s.takeInput_lenHi rest)

/-- Settles O10: each of the three accesses is a `State.hostMessage` of a CORE that is still busy when the step takes it. -/
theorem messagesWhileBusy : Obligations.MessagesWhileBusy := by
  intro s addr v rest hbusy
  have refused : ∀ t, (s.takeInput rest).hostMessage addr t = .refused (.messageWhileBusy addr) :=
    State.hostMessage_busy (by simpa using hbusy) addr
  refine ⟨fun hwriteIn => ?_, fun hwriteOut => ?_, fun hreadOut => ?_⟩
  · rw [step_host hwriteIn, State.interact, refused]
  · rw [step_host hwriteOut, State.interact, refused]
  · rw [step_host hreadOut, State.interact, refused]

theorem State.usingMessages_of_legal {s : State} {cw : Word} {i : Instr} (hcmd : s.cmd = some cw) (hdecode : decode cw = .ok i) :
    s.usingMessages = touchesMessages i := by
  simp [State.usingMessages, hcmd, hdecode]

/-- A reset that abandons a CIPHER or COMBINE mixes the old OUT with the one the command would have left (R124). -/
theorem State.outAfterReset_of_abandoned {s u : State} {cw : Word} {i : Instr} (hcmd : s.cmd = some cw)
    (hdecode : decode cw = .ok i) (hi : touchesMessages i = true) (hexec : exec i s = .next u) :
    s.outAfterReset = Memory.mix (Config.keepsOldByte s.draws) s.len s.outMem u.outMem := by
  rw [State.outAfterReset, if_pos ((State.usingMessages_of_legal hcmd hdecode).trans hi), State.runCommand_legal hcmd hdecode,
    hexec]

/-- With IN, OUT, the pending interactions and the count of free values left out, a reset state is the one state after reset
(R26). -/
theorem State.hostReset_registers (s : State) :
    { s.hostReset with inMem := [], outMem := [], inputs := [], draws := 0 } = State.reset := rfl

/-- Settles O18: OUT after the reset is a mix, and `Memory.mix_read` says which of the two bytes it reads at each offset. -/
theorem resetAbandonsOutput : Obligations.ResetAbandonsOutput := by
  intro s cw i rest hcmd hdecode hi hwf hinputs
  have htouches : touchesMessages i = true := by rcases hi with rfl | rfl <;> rfl
  have hne : i ≠ .construct := by rcases hi with rfl | rfl <;> decide
  obtain ⟨u, hu, -⟩ := exec_next_sameContext hne (s.takeInput rest)
  have hout : ∀ a, (s.takeInput rest).hostReset.outMem.read a =
      if a < s.len ∧ Config.keepsOldByte s.draws a = false then u.outMem.read a else s.outMem.read a := by
    intro a
    rw [State.hostReset_outMem, State.outAfterReset_of_abandoned (by simpa using hcmd) hdecode htouches hu]
    simpa using Memory.mix_read (Config.keepsOldByte s.draws) s.len hwf a
  refine ⟨_, u, step_reset hinputs, hu, fun a _ => ?below, fun a ha => ?above, State.hostReset_registers _⟩
  case below =>
    rw [hout a]
    exact (ite_eq_or_eq _ _ _).symm
  case above =>
    rw [hout a, if_neg fun ⟨hlt, _⟩ => ha.not_gt hlt]

end Sys2Proof.Machine
end

section
/-! The command words both ways: encoding and decoding are inverse (R45 to R47), and a row's mask and match select it (R50). -/

namespace Sys2Proof

/-- Format Q is the format of one code, QROUND's (R46). -/
theorem Instr.op_eq_q_iff {i : Instr} : i.op = 0x11 ↔ ∃ a b c d, i = .qround a b c d := by
  cases i <;> simp [Instr.op]

/-- A format N command's word is its code, its row compares the whole word, and every such command is well-formed. -/
theorem Instr.format_n {i : Instr} (h : i.op ≠ 0x11) :
    formatN i.op = some i ∧ encode i = i.op.setWidth 32 ∧ i.mask = 0xFFFFFFFF ∧ i.WellFormed := by
  cases i with
  | qround a b c d => exact absurd rfl h
  | _ => exact ⟨rfl, rfl, rfl, trivial⟩

/-- The format N table lists each command at its own code. -/
theorem op_of_formatN_eq_some {op : BitVec 8} {i : Instr} (h : formatN op = some i) : i.op = op := by
  unfold formatN at h
  split_ifs at h <;> cases h <;> exact Eq.symm ‹op = _›

/-- Two words that agree on the opcode byte, on bits 23:8 and on the top byte are equal. -/
theorem eq_of_fields_eq {x y : Word} (hlow : x.extractLsb' 0 8 = y.extractLsb' 0 8)
    (hmid : x.extractLsb' 8 16 = y.extractLsb' 8 16) (htop : x.extractLsb' 24 8 = y.extractLsb' 24 8) : x = y := by
  simp only [← BitVec.toNat_inj, toNat_field] at *
  omega

/-- A word without a bit above its code is the code's word (R45). -/
theorem eq_setWidth_op_iff {cw : Word} {op : BitVec 8} :
    cw = op.setWidth 32 ↔ cw.extractLsb' 0 8 = op ∧ cw.extractLsb' 8 24 = 0 := by
  have := cw.isLt
  have := op.isLt
  rw [field_eq_zero_iff rfl, ← BitVec.toNat_inj, ← BitVec.toNat_inj, toNat_field, BitVec.toNat_setWidth]
  omega

/-- The mask of format Q keeps the opcode byte and the top byte (R50). -/
theorem and_maskQ_eq_iff {cw : Word} :
    cw &&& 0xFF0000FF = 0x11 ↔ cw.extractLsb' 0 8 = 0x11 ∧ cw.extractLsb' 24 8 = 0 := by
  have hlow : (cw &&& 0xFF0000FF).extractLsb' 0 8 = cw.extractLsb' 0 8 := by
    rw [BitVec.extractLsb'_and]; exact BitVec.and_allOnes
  have hmid : (cw &&& 0xFF0000FF).extractLsb' 8 16 = 0 := by
    rw [BitVec.extractLsb'_and]; exact BitVec.and_zero
  have htop : (cw &&& 0xFF0000FF).extractLsb' 24 8 = cw.extractLsb' 24 8 := by
    rw [BitVec.extractLsb'_and]; exact BitVec.and_allOnes
  constructor
  · intro h
    rw [← hlow, ← htop, h]
    decide
  · rintro ⟨h0, h24⟩
    exact eq_of_fields_eq (hlow.trans h0) hmid (htop.trans h24)

/-- Every row compares the opcode byte (R50). -/
theorem op_of_match {cw : Word} {i : Instr} (h : cw &&& i.mask = i.pattern) : cw.extractLsb' 0 8 = i.op := by
  by_cases hq : i.op = 0x11
  · obtain ⟨a, b, c, d, rfl⟩ := Instr.op_eq_q_iff.mp hq
    exact (and_maskQ_eq_iff.mp h).1
  · obtain ⟨-, -, hmask, -⟩ := Instr.format_n hq
    rw [hmask] at h
    exact (eq_setWidth_op_iff.mp (BitVec.and_allOnes.symm.trans h)).1

/-- A format N word decodes to the command its code stands for. -/
theorem decode_setWidth_op {i : Instr} (h : i.op ≠ 0x11) : decode (i.op.setWidth 32) = .ok i := by
  obtain ⟨hlow, hhigh⟩ := eq_setWidth_op_iff.mp (rfl : i.op.setWidth 32 = i.op.setWidth 32)
  rw [decode, hlow, if_neg h, (Instr.format_n h).1]
  exact if_pos hhigh

/-- A format Q word whose top byte is 0 decodes to the QROUND of its index fields, or repeats an index (R47, R49). -/
theorem decode_q {cw : Word} (hop : cw.extractLsb' 0 8 = 0x11) (htop : cw.extractLsb' 24 8 = 0) :
    (∃ a b c d, decode cw = .ok (.qround a b c d)) ∨ decode cw = .error .repeatedIndex := by
  rw [decode, if_pos hop, decodeQ, if_neg (not_not.mpr htop)]
  dsimp only
  split
  · exact .inl ⟨_, _, _, _, rfl⟩
  · exact .inr rfl

/-- What a decoded format Q word is made of (R45, R47). -/
theorem decodeQ_ok {cw : Word} {i : Instr} (h : decodeQ cw = .ok i) :
    ∃ a b c d : WIndex, i = .qround a b c d ∧ PairwiseDistinct a b c d ∧ cw.toNat / 2 ^ 24 = 0 ∧
      a.val = cw.toNat / 2 ^ 8 % 16 ∧ b.val = cw.toNat / 2 ^ 12 % 16 ∧ c.val = cw.toNat / 2 ^ 16 % 16 ∧
      d.val = cw.toNat / 2 ^ 20 % 16 := by
  by_cases htop : cw.extractLsb' 24 8 = 0
  · rw [decodeQ, if_neg (not_not.mpr htop)] at h
    dsimp only at h
    split at h
    case isTrue hdistinct =>
      cases h
      exact ⟨_, _, _, _, rfl, hdistinct, (field_eq_zero_iff rfl).mp htop, toNat_field cw 8 4, toNat_field cw 12 4,
        toNat_field cw 16 4, toNat_field cw 20 4⟩
    case isFalse => cases h
  · rw [decodeQ, if_pos htop] at h
    cases h

/-- A decoded format Q word is its command's word. -/
theorem encode_of_decodeQ_ok {cw : Word} {i : Instr} (hop : cw.extractLsb' 0 8 = 0x11) (h : decodeQ cw = .ok i) :
    i.WellFormed ∧ encode i = cw := by
  obtain ⟨a, b, c, d, rfl, hdistinct, htop, ha, hb, hc, hd⟩ := decodeQ_ok h
  have hlow : cw.toNat / 2 ^ 0 % 2 ^ 8 = 0x11 := by rw [← toNat_field, hop]; rfl
  refine ⟨hdistinct, BitVec.eq_of_toNat_eq ?_⟩
  rw [encode, BitVec.toNat_ofNat]
  omega

/-- What a decoded word of another format is made of: its command's code, and 0 above it (R45). -/
theorem fields_of_decode_ok {cw : Word} {i : Instr} (hop : cw.extractLsb' 0 8 ≠ 0x11) (h : decode cw = .ok i) :
    i.op = cw.extractLsb' 0 8 ∧ cw.extractLsb' 8 24 = 0 := by
  rw [decode, if_neg hop] at h
  cases hformat : formatN (cw.extractLsb' 0 8) with
  | none => simp [hformat] at h
  | some j =>
    simp only [hformat] at h
    split at h
    case isTrue hhigh =>
      cases h
      exact ⟨op_of_formatN_eq_some hformat, hhigh⟩
    case isFalse => cases h

/-- Settles O2: a QROUND by its four fields, the others by the format N table. -/
theorem decodeOfEncode : Obligations.DecodeOfEncode := by
  intro i hwf
  by_cases hq : i.op = 0x11
  · obtain ⟨a, b, c, d, rfl⟩ := Instr.op_eq_q_iff.mp hq
    exact decode_encode_qround hwf
  · rw [(Instr.format_n hq).2.1]
    exact decode_setWidth_op hq

/-- Settles O3: the fields the decoder has checked determine the word. -/
theorem encodeOfDecode : Obligations.EncodeOfDecode := by
  intro cw i h
  by_cases hop : cw.extractLsb' 0 8 = 0x11
  · rw [decode, if_pos hop] at h
    exact encode_of_decodeQ_ok hop h
  · obtain ⟨hi, hhigh⟩ := fields_of_decode_ok hop h
    obtain ⟨-, henc, -, hwf⟩ := Instr.format_n (hi ▸ hop)
    exact ⟨hwf, henc.trans (eq_setWidth_op_iff.mpr ⟨hi.symm, hhigh⟩).symm⟩

/-- The word of every command meets its row's mask and match (R50). -/
theorem encode_and_mask (i : Instr) : encode i &&& i.mask = i.pattern := by
  by_cases hq : i.op = 0x11
  · obtain ⟨a, b, c, d, rfl⟩ := Instr.op_eq_q_iff.mp hq
    refine and_maskQ_eq_iff.mpr ⟨Laws.OpByte.qround a b c d, (field_eq_zero_iff rfl).mpr ?_⟩
    rw [encode, BitVec.toNat_ofNat]
    omega
  · obtain ⟨-, henc, hmask, -⟩ := Instr.format_n hq
    rw [henc, hmask]
    exact BitVec.and_allOnes

/-- Settles O5: a decoded word is its command's word; a matching word has the row's code, and its format decides the rest. -/
theorem rowsSelectedByMask : Obligations.RowsSelectedByMask := by
  refine ⟨fun cw i h => ?met, fun cw i h => ?selects, fun cw i j hi hj => (op_of_match hi).symm.trans (op_of_match hj)⟩
  case met =>
    rw [← (encodeOfDecode cw i h).2]
    exact encode_and_mask i
  case selects =>
    by_cases hq : i.op = 0x11
    · obtain ⟨a, b, c, d, rfl⟩ := Instr.op_eq_q_iff.mp hq
      obtain ⟨hop, htop⟩ := and_maskQ_eq_iff.mp h
      exact (decode_q hop htop).imp (fun ⟨_, _, _, _, hj⟩ => ⟨_, hj, rfl⟩) fun he => ⟨rfl, he⟩
    · obtain ⟨-, -, hmask, -⟩ := Instr.format_n hq
      rw [hmask] at h
      obtain rfl : cw = i.op.setWidth 32 := BitVec.and_allOnes.symm.trans h
      exact .inl ⟨i, decode_setWidth_op hq, rfl⟩

/-- Settles O1: each of the eleven words, evaluated. -/
theorem decodeSpecWords : Obligations.DecodeSpecWords := by
  unfold Obligations.DecodeSpecWords
  decide

end Sys2Proof
end

section
/-! What a step can do, said once: the platform's reset, the execution of a command, or an interaction of the host that leaves
the sequencer, RESULT and FAULTLOG alone. The invariant and the rules of RESULT and FAULTLOG follow (R12, R14, R100, R107, R130). -/

namespace Sys2Proof.Machine

/-- What every interaction of the host but reset and wait keeps: the sequencer, RESULT, FAULTLOG, a command being executed, and
the form of the message spaces. -/
structure HostKeeps (s t : State) : Prop where
  sequencer : t.blk = s.blk ∧ t.rnd = s.rnd
  result : t.result = s.result
  log : t.faultLog = s.faultLog
  command : s.cmd.isSome = true → t.cmd = s.cmd
  text : s.inMem.wf = true ∧ s.inMem.inRange = true → t.inMem.wf = true ∧ t.inMem.inRange = true
  out : s.outMem.wf = true ∧ s.outMem.inRange = true → t.outMem.wf = true ∧ t.outMem.inRange = true

/-- A write at a 64-bit offset keeps the form of a message space (R30). -/
theorem Memory.write_form {m : Memory} (h : m.wf = true ∧ m.inRange = true) (addr : BitVec 64) (v : Byte) :
    (m.write addr.toNat v).wf = true ∧ (m.write addr.toNat v).inRange = true :=
  ⟨Memory.write_wf h.1 _ v, Memory.write_inRange h.2 addr.isLt v⟩

/-- A write of a register changes none of what an interaction keeps, but for CMD of an idle CORE. -/
theorem State.writeReg_hostKeeps {s t : State} {v : Word} {reg : WindowReg} (hidle : s.cmd = none)
    (h : s.writeReg v reg = some t) : HostKeeps s t := by
  have hcmd : s.cmd.isSome = true → t.cmd = s.cmd := by simp [hidle]
  cases reg <;> cases h <;> exact ⟨⟨rfl, rfl⟩, rfl, rfl, hcmd, id, id⟩

/-- What an interaction of the host can do. -/
theorem State.interact_cases {s t : State} {i : Input} (h : s.interact i = .next t) :
    (i = .reset ∧ t = s.hostReset) ∨ (i = .wait ∧ s.runCommand = .next t) ∨ HostKeeps s t := by
  cases i with
  | write off size v =>
    obtain ⟨reg, -, hbusy, hwrite⟩ := State.hostWrite_next h
    exact .inr (.inr (State.writeReg_hostKeeps (by simpa [State.busy] using hbusy) hwrite))
  | read off size =>
    obtain ⟨_, _, -, -, -, rfl⟩ := State.hostRead_next h
    exact .inr (.inr ⟨by simp, by simp, by simp, by simp, by simp, by simp⟩)
  | writeIn addr v =>
    obtain ⟨-, rfl⟩ := State.hostMessage_next h
    exact .inr (.inr ⟨by simp, by simp, by simp, by simp, fun hin => Memory.write_form hin addr v, by simp⟩)
  | writeOut addr v =>
    obtain ⟨-, rfl⟩ := State.hostMessage_next h
    exact .inr (.inr ⟨by simp, by simp, by simp, by simp, by simp, fun hout => Memory.write_form hout addr v⟩)
  | readOut addr =>
    obtain ⟨-, rfl⟩ := State.hostMessage_next h
    exact .inr (.inr ⟨by simp, by simp, by simp, by simp, by simp, by simp⟩)
  | wait => exact .inr (.inl ⟨rfl, h⟩)
  | reset =>
    cases h
    exact .inl ⟨rfl, rfl⟩

/-- `u` is `s` when a step is the CORE's: with no interaction pending, or with `wait` taken from the list (R7, R130). -/
def State.AtCommand (s u : State) : Prop := u = s ∨ ∃ rest, u = s.takeInput rest

/-- Everything a step can do. -/
theorem step_cases {s t : State} (h : step s = .next t) :
    (∃ rest, s.inputs = .reset :: rest ∧ t = (s.takeInput rest).hostReset) ∨
    (∃ u, s.AtCommand u ∧ u.runCommand = .next t) ∨ HostKeeps s t := by
  cases hinputs : s.inputs with
  | nil => exact .inr (.inl ⟨s, .inl rfl, (step_core hinputs).symm.trans h⟩)
  | cons i rest =>
    rw [step_host hinputs] at h
    rcases State.interact_cases h with ⟨rfl, ht⟩ | ⟨rfl, hrun⟩ | hkeeps
    · exact .inl ⟨rest, rfl, ht⟩
    · exact .inr (.inl ⟨_, .inr ⟨rest, rfl⟩, hrun⟩)
    · obtain ⟨hseq, hresult, hlog, hcmd, htext, hout⟩ := hkeeps
      exact .inr (.inr ⟨hseq, hresult, hlog, hcmd, htext, hout⟩)

/-- Everything the execution of a command can do (R106, R107, R121): nothing when idle, a raised error, or the end of an effect
that keeps its surroundings and OUT's form. -/
theorem State.runCommand_cases {s t : State} (h : s.runCommand = .next t) :
    (s.cmd = none ∧ t = s) ∨ (s.cmd.isSome = true ∧
      ((∃ e, e ≠ CmdError.taskFailure ∧ (t = s.raise e ∨ t = s.invalidate.raise e)) ∨
        ∃ u : State, t = u.finish 0 ∧ KeepsSurroundings s u ∧
          (s.outMem.wf = true → u.outMem.wf = true) ∧ (s.outMem.inRange = true → u.outMem.inRange = true))) := by
  cases hcmd : s.cmd with
  | none =>
    rw [State.runCommand_idle hcmd] at h
    cases h
    exact .inl ⟨rfl, rfl⟩
  | some cw =>
    refine .inr ⟨rfl, ?_⟩
    cases hdecode : decode cw with
    | error e =>
      rw [State.runCommand_illegal hcmd hdecode] at h
      cases h
      exact .inl ⟨.illegalCommand, by decide, .inl rfl⟩
    | ok i =>
      rw [State.runCommand_legal hcmd hdecode] at h
      rcases exec_cases i s with ⟨e, he, hexec⟩ | ⟨e, he, -, hexec⟩ | ⟨u, hexec, hu⟩ <;> rw [hexec] at h <;> cases h
      · exact .inl ⟨e, he, .inl rfl⟩
      · exact .inl ⟨e, he, .inr rfl⟩
      · exact .inr ⟨u, rfl, hu⟩

/-! The invariant. -/

/-- An error that can be raised has no reserved FAULTLOG bit (R14, R117). -/
theorem CmdError.bit_and_logReserved {e : CmdError} (he : e ≠ .taskFailure) : e.bit &&& logReserved = 0 := by
  cases e with
  | taskFailure => exact absurd rfl he
  | _ => decide

theorem State.Inv.raise {s : State} (h : s.Inv) {e : CmdError} (he : e ≠ .taskFailure) : (s.raise e).Inv where
  sequencer := ⟨s.raise_blk e, s.raise_rnd e⟩
  textForm := h.textForm
  outForm := h.outForm
  logForm := by
    rw [State.raise_faultLog, BitVec.and_or_distrib_right, h.logForm, CmdError.bit_and_logReserved he]
    exact BitVec.or_zero
  resultLogged := .inr ⟨e, he, s.raise_result e, by
    ext1
    simpa using Or.inr⟩

theorem State.Inv.invalidate {s : State} (h : s.Inv) : s.invalidate.Inv :=
  ⟨h.sequencer, h.textForm, h.outForm, h.logForm, h.resultLogged⟩

theorem State.Inv.takeInput {s : State} (h : s.Inv) (rest : List Input) : (s.takeInput rest).Inv :=
  ⟨h.sequencer, h.textForm, h.outForm, h.logForm, h.resultLogged⟩

theorem State.Inv.runCommand {s t : State} (hs : s.Inv) (h : s.runCommand = .next t) : t.Inv := by
  rcases State.runCommand_cases h with ⟨-, rfl⟩ | ⟨-, ⟨e, he, rfl | rfl⟩ | ⟨u, rfl, hu, hwf, hrange⟩⟩
  · exact hs
  · exact hs.raise he
  · exact hs.invalidate.raise he
  · exact ⟨by simp, by simpa [hu.text] using hs.textForm, hs.outForm.imp hwf hrange, by simpa [hu.log] using hs.logForm,
      .inl (by simp)⟩

theorem State.Inv.hostKeeps {s t : State} (hs : s.Inv) (h : HostKeeps s t) : t.Inv where
  sequencer := by simpa [h.sequencer] using hs.sequencer
  textForm := h.text hs.textForm
  outForm := h.out hs.outForm
  logForm := h.log ▸ hs.logForm
  resultLogged := by simpa only [h.result, h.log] using hs.resultLogged

/-- OUT after a reset is the old one, or a mix of it with another (R120, R124). -/
theorem State.outAfterReset_eq_or_mix (s : State) :
    s.outAfterReset = s.outMem ∨
      ∃ new, s.outAfterReset = Memory.mix (Config.keepsOldByte s.draws) s.len s.outMem new := by
  rw [State.outAfterReset]
  split
  · split
    · exact .inr ⟨_, rfl⟩
    · exact .inl rfl
    · exact .inl rfl
  · exact .inl rfl

theorem State.len_lt (s : State) : s.len < 2 ^ 64 := by
  have := s.lenLo.isLt
  have := s.lenHi.isLt
  rw [State.len]
  omega

theorem State.outAfterReset_form {s : State} (h : s.outMem.wf = true ∧ s.outMem.inRange = true) :
    s.outAfterReset.wf = true ∧ s.outAfterReset.inRange = true := by
  rcases s.outAfterReset_eq_or_mix with heq | ⟨new, heq⟩ <;> rw [heq]
  · exact h
  · exact ⟨Memory.mix_wf _ _ _ h.1, Memory.mix_inRange _ _ _ s.len_lt.le h.2⟩

/-- Settles O56: in the reset state every register the invariant speaks of is 0, and no byte is listed. -/
theorem invAtReset : Obligations.InvAtReset :=
  ⟨⟨rfl, rfl⟩, ⟨rfl, rfl⟩, ⟨rfl, rfl⟩, rfl, .inl rfl⟩

theorem State.Inv.hostReset {s : State} (h : s.Inv) : s.hostReset.Inv where
  sequencer := invAtReset.sequencer
  textForm := by simpa using h.textForm
  outForm := by simpa using State.outAfterReset_form h.outForm
  logForm := invAtReset.logForm
  resultLogged := invAtReset.resultLogged

/-- Settles O57: each of the three things a step can do keeps the invariant. -/
theorem invKeptByStep : Obligations.InvKeptByStep := by
  intro s t hs h
  rcases step_cases h with ⟨rest, -, rfl⟩ | ⟨u, rfl | ⟨rest, rfl⟩, hrun⟩ | hkeeps
  · exact (hs.takeInput rest).hostReset
  · exact hs.runCommand hrun
  · exact (hs.takeInput rest).runCommand hrun
  · exact hs.hostKeeps hkeeps

/-! RESULT and FAULTLOG. -/

/-- A raised error sets the FAULTLOG bit that RESULT then numbers (R14, R107). -/
theorem State.raise_getLsbD_faultLog (s : State) (e : CmdError) (n : Nat) :
    (s.raise e).faultLog.getLsbD n = (s.faultLog.getLsbD n || (n != 0 && (s.raise e).result.toNat == n)) := by
  have hcode : e.code.toNat ≠ 0 := fun h => e.code_ne_zero (BitVec.eq_of_toNat_eq h)
  rw [State.raise_faultLog, State.raise_result, BitVec.getLsbD_or, CmdError.getLsbD_bit]
  have hbit : (n == e.code.toNat) = (n != 0 && e.code.toNat == n) := by
    rw [Bool.eq_iff_iff]
    simp
    omega
  rw [hbit]

/-- The execution of a command ends it and logs the error it ends with; an idle CORE logs nothing. -/
theorem State.runCommand_faultLog {s t : State} (h : s.runCommand = .next t) (n : Nat) :
    t.faultLog.getLsbD n =
      (s.faultLog.getLsbD n || (s.cmd.isSome && t.cmd.isNone && n != 0 && t.result.toNat == n)) := by
  rcases State.runCommand_cases h with ⟨hidle, rfl⟩ | ⟨hcmd, ⟨e, -, rfl | rfl⟩ | ⟨u, rfl, hu, -⟩⟩
  · simp [hidle]
  · simpa [hcmd] using s.raise_getLsbD_faultLog e n
  · simpa [hcmd] using s.invalidate.raise_getLsbD_faultLog e n
  · by_cases hn : n = 0
    · simp [hu.log, hn]
    · simp [hu.log, Ne.symm hn]

/-- Settles O55: the execution of a command logs what `State.runCommand_faultLog` says; any other interaction keeps FAULTLOG and
ends no command. -/
theorem faultLogSticky : Obligations.FaultLogSticky := by
  intro s t hreset h n
  rcases step_cases h with ⟨rest, hinputs, -⟩ | ⟨u, rfl | ⟨rest, rfl⟩, hrun⟩ | hkeeps
  · exact absurd hinputs (hreset rest)
  · exact State.runCommand_faultLog hrun n
  · exact State.runCommand_faultLog hrun n
  · have hnever : (s.cmd.isSome && t.cmd.isNone) = false := by
      cases hcmd : s.cmd with
      | none => rfl
      | some cw => simp [hkeeps.command (by simp [hcmd]), hcmd]
    simp [hkeeps.log, hnever]

/-- Settles O49: in each of the three cases of `exec_cases` the command ends with `State.finish`. -/
theorem everyCommandEnds : Obligations.EveryCommandEnds := by
  intro i s
  rcases exec_cases i s with ⟨e, -, he⟩ | ⟨e, -, -, he⟩ | ⟨u, he, -⟩
  · exact ⟨_, he, (s.raise_failed e).2.2⟩
  · exact ⟨_, he, (s.invalidate.raise_failed e).2.2⟩
  · exact ⟨_, he, u.finish_cmd 0, u.finish_blk 0, u.finish_rnd 0⟩

/-- Settles O53: a failing command has raised its error, at most after clearing VALID, and `raise` keeps all eight. -/
theorem errorsArePrecise : Obligations.ErrorsArePrecise := by
  intro i s t h hr
  obtain ⟨e, rfl | ⟨-, rfl⟩⟩ := exec_eq_raise h hr <;> simp

end Sys2Proof.Machine
end

section
/-! The frame of every command (R23), and the errors each can raise (R110). -/

namespace Sys2Proof.Machine

/-- A command has one answer. -/
theorem exec_next_unique {i : Instr} {s t u : State} (h : exec i s = .next t) (hu : exec i s = .next u) : t = u :=
  Host.Outcome.next.inj (h.symm.trans hu)

/-- CIPHER writes no byte of OUT from LEN on, whether it succeeds or not (R92). -/
theorem exec_cipher_read_of_ge {s t : State} (h : exec .cipher s = .next t) (hw : s.outMem.wf = true) {a : Nat}
    (ha : s.len ≤ a) : t.outMem.read a = s.outMem.read a := by
  cases herr : s.cipherError with
  | some e =>
    rw [exec_cipher_of_error herr] at h
    cases h
    rw [State.raise_outMem]
  | none => rw [exec_cipher_read h herr hw, if_neg ha.not_gt]

/-- COMBINE writes no byte from LEN on, whether it succeeds or not (R84). -/
theorem exec_combine_keeps_from_len {s t : State} (h : exec .combine s = .next t) (hw : s.outMem.wf = true) {a : Nat}
    (ha : s.len ≤ a) : t.outMem.read a = s.outMem.read a := by
  rcases Nat.lt_or_ge 64 s.len with hlong | hlen
  · rw [exec_combine_long hlong] at h
    cases h
    rw [State.raise_outMem]
  · exact exec_combine_read_of_ge h hw hlen ha

/-- Settles O51: the surroundings and the context are kept as by every command; the other registers and OUT by each command's own
equation or frame. -/
theorem commandFrames : Obligations.CommandFrames := by
  intro i s t h
  refine ⟨exec_sameSurroundings h, fun hi => exec_sameContext hi h, ?_⟩
  cases i with
  | construct =>
    obtain ⟨-, hout, hs, hw, hb, hks⟩ := exec_construct_frame h
    exact ⟨fun _ _ => hs, fun _ _ _ _ => hw, fun _ _ _ => hb, fun _ _ => hks, fun _ _ => hout, fun _ a _ => hout a⟩
  | initstate =>
    obtain ⟨-, -, hout, hw, hb, hks⟩ := exec_initstate_frame h
    exact ⟨fun h => absurd rfl h, fun _ _ _ _ => hw, fun _ _ _ => hb, fun _ _ => hks, fun _ _ => hout, fun _ a _ => hout a⟩
  | block =>
    obtain rfl := exec_next_unique h (exec_block_eq s)
    simp [SameOut]
  | serialize =>
    obtain rfl := exec_next_unique h (exec_serialize s)
    simp [SameOut]
  | combine =>
    obtain ⟨-, -, hs, hw, hb, hks⟩ := exec_combine_frame h
    simpa [hs, hw, hb, hks] using fun hwf a => exec_combine_keeps_from_len (a := a) h hwf
  | cipher => simpa using fun hwf a => exec_cipher_read_of_ge (a := a) h hwf
  | copy =>
    obtain rfl := exec_next_unique h (exec_copy s)
    simp [SameOut]
  | qround a b c d =>
    obtain ⟨-, -, hout, hs, hb, hks⟩ := exec_qround_frame h
    exact ⟨fun _ _ => hs, fun h => absurd rfl (h a b c d), fun _ _ _ => hb, fun _ _ => hks, fun _ _ => hout,
      fun _ p _ => hout p⟩
  | addstate =>
    obtain rfl := exec_next_unique h (exec_addstate s)
    simp [SameOut]

/-- The RESULT a command ends with, read off its answer. -/
theorem result_of_next {i : Instr} {s t u : State} {code : BitVec 4} (h : exec i s = .next t) (hu : exec i s = .next u)
    (hcode : u.result = code) : t.result = code := by
  rw [exec_next_unique h hu, hcode]

/-- CONSTRUCT ends in success or in one of its two length errors (R101, R102). -/
theorem exec_construct_result {s t : State} (h : exec .construct s = .next t) : t.result = 0 ∨ t.result = 1 ∨ t.result = 2 := by
  by_cases hkey : s.keyLen = 32
  · by_cases hnonce : s.nonceLen = 12
    · exact .inl (result_of_next h (exec_construct_ok hkey hnonce) rfl)
    · exact .inr (.inr (result_of_next h (exec_construct_badNonce hkey hnonce) rfl))
  · exact .inr (.inl (result_of_next h (exec_construct_badKey hkey) rfl))

/-- INITSTATE ends in success or in NoContext (R105). -/
theorem exec_initstate_result {s t : State} (h : exec .initstate s = .next t) : t.result = 0 ∨ t.result = 6 := by
  cases hvalid : s.valid with
  | true => exact .inl (result_of_next h (exec_initstate_ok hvalid) rfl)
  | false => exact .inr (result_of_next h (exec_initstate_noContext hvalid) rfl)

/-- COMBINE ends in success or in LengthMismatch (R103). -/
theorem exec_combine_result {s t : State} (h : exec .combine s = .next t) : t.result = 0 ∨ t.result = 3 := by
  rcases Nat.lt_or_ge 64 s.len with hlong | hlen
  · exact .inr (result_of_next h (exec_combine_long hlong) rfl)
  · exact .inl (result_of_next h (exec_combine_ok hlen) rfl)

/-- CIPHER ends in success, in NoContext or in CounterOverflow (R104, R105). -/
theorem exec_cipher_result_cases {s t : State} (h : exec .cipher s = .next t) :
    t.result = 0 ∨ t.result = 6 ∨ t.result = 5 := by
  cases hvalid : s.valid with
  | false => exact .inr (.inl (result_of_next h (exec_cipher_noContext hvalid) rfl))
  | true =>
    cases hover : counterOverflows s.ctr0 s.len with
    | true => exact .inr (.inr (result_of_next h (exec_cipher_overflow hvalid hover) rfl))
    | false => exact .inl (result_of_next h (exec_cipher_ok hvalid hover) rfl)

/-- QROUND ends in success, or in IllegalCommand where an index is repeated (R106). -/
theorem exec_qround_result {a b c d : WIndex} {s t : State} (h : exec (.qround a b c d) s = .next t) :
    t.result = 0 ∨ (¬ PairwiseDistinct a b c d ∧ t.result = 7) := by
  by_cases hdistinct : PairwiseDistinct a b c d
  · exact .inl (result_of_next h (exec_qround_ok hdistinct s) rfl)
  · exact .inr ⟨hdistinct, result_of_next h (exec_qround_repeated hdistinct s) rfl⟩

/-- Settles O54: the five commands that can fail, each by its lemma; the other four have one answer, a success. -/
theorem errorsByCommand : Obligations.ErrorsByCommand := by
  intro i s t h
  cases i with
  | construct => simpa using exec_construct_result h
  | initstate => simpa using exec_initstate_result h
  | block => exact .inl (result_of_next h (exec_block s) rfl)
  | serialize => exact .inl (result_of_next h (exec_serialize s) rfl)
  | combine => simpa using exec_combine_result h
  | cipher => simpa using exec_cipher_result_cases h
  | copy => exact .inl (result_of_next h (exec_copy s) rfl)
  | qround a b c d =>
    exact (exec_qround_result h).imp_right fun ⟨hrepeated, hr⟩ => .inr (.inr (.inl ⟨⟨a, b, c, d, rfl, hrepeated⟩, hr⟩))
  | addstate => exact .inl (result_of_next h (exec_addstate s) rfl)

end Sys2Proof.Machine
end

section
/-! The Block Transform: BLOCK as a sequence of commands (R53, R74), the quarter-round as a bijection (R66), the independence of the
quarter-rounds of one round (R75), and the layout of the State (R61). -/

namespace Sys2Proof.Machine

/-! BLOCK.LONG. -/

/-- A list of commands runs its first part, then its second (R127). -/
theorem execAll_append {is js : List Instr} {s t : State} (h : execAll is s = .next t) :
    execAll (is ++ js) s = execAll js t := by
  induction is generalizing s with
  | nil =>
    cases h
    rfl
  | cons i is ih =>
    obtain ⟨u, hu, -⟩ := everyCommandEnds i s
    rw [execAll_cons hu] at h
    rw [List.cons_append, execAll_cons hu, ih h]

/-- `s` with the working array `w`, after a command that has succeeded. -/
def State.worked (s : State) (w : Words 16) : State := (s.setW w).finish 0

/-- A QROUND replaces the working array that the command before it left. -/
theorem exec_qround_worked {a b c d : WIndex} (h : PairwiseDistinct a b c d) (s : State) (w : Words 16) :
    exec (.qround a b c d) (s.worked w) = .next (s.worked (quarterRoundAt w a b c d)) := by
  rw [exec_qround_ok h]
  rfl

/-- The eight QROUNDs of DROUND are a column round, then a diagonal round (R53, R67 to R69). -/
theorem execAll_dRound (s : State) (w : Words 16) : execAll dRound (s.worked w) = .next (s.worked (doubleRoundOf w)) := by
  rw [dRound, colRound, diagRound]
  simp only [List.cons_append, List.nil_append]
  iterate 8 rw [execAll_cons (exec_qround_worked (by decide) s _)]
  rfl

theorem execAll_dRounds (n : Nat) (s : State) (w : Words 16) :
    execAll (dRounds n) (s.worked w) = .next (s.worked (doubleRoundsOf n w)) := by
  induction n with
  | zero => rfl
  | succ n ih => rw [dRounds, execAll_append ih, execAll_dRound, doubleRoundsOf]

/-- Settles O27: COPY loads W, ten DROUNDs are ten double rounds by `execAll_dRounds`, ADDSTATE writes B. -/
theorem blockIsBlockLong : Obligations.BlockIsBlockLong := by
  refine ⟨rfl, fun s => ⟨_, exec_block_eq s, ?_⟩⟩
  have hcopy : exec .copy s = .next (s.worked s.s) := exec_copy s
  rw [blockLong, execAll_cons hcopy, rounds20, execAll_append (execAll_dRounds 10 s s.s), execAll_cons (exec_addstate _),
    execAll]
  refine congrArg _ ?_
  ext1 <;> simp [State.worked, workingOf, blockOf, nDoubleRounds]

/-! The quarter-round is a bijection. -/

/-- A rotation loses no bit (R65). -/
theorem rotl32_injective {n : Nat} (hn : n < 32) : Function.Injective (rotl32 · n) := by
  intro x y h
  refine BitVec.eq_of_getLsbD_eq fun i hi => ?_
  rw [← rotl32_getLsbD x hn hi, ← rotl32_getLsbD y hn hi]
  exact congrArg (BitVec.getLsbD · _) h

/-- Each line of the quarter-round can be undone: the new words and `y` give the old ones (R66). -/
theorem addXorRot_inj {x x' y y' z z' : Word} {n : Nat} (hn : n < 32) (hy : y = y')
    (h : addXorRot x y z n = addXorRot x' y' z' n) : x = x' ∧ z = z' := by
  subst hy
  obtain ⟨hsum, hrot⟩ := Prod.mk.inj h
  have hx : x = x' := (BitVec.add_left_inj y).mp hsum
  have hxor : z ^^^ (x + y) = z' ^^^ (x' + y) := rotl32_injective hn hrot
  rw [hx] at hxor
  exact ⟨hx, (BitVec.xor_left_inj _).mp hxor⟩

/-- The four lines, undone from the last to the first (R66). -/
theorem quarterRound_injective : Function.Injective quarterRound := by
  rintro ⟨a, b, c, d⟩ ⟨a', b', c', d'⟩ h
  obtain ⟨ha, hb, hc, hd⟩ := Quad.mk.inj h
  obtain ⟨hc1, hb1⟩ := addXorRot_inj (by decide) hd (Prod.ext hc hb)
  obtain ⟨ha1, hd1⟩ := addXorRot_inj (by decide) hb1 (Prod.ext ha hd)
  obtain ⟨rfl, rfl⟩ := addXorRot_inj (by decide) hd1 (Prod.ext hc1 hb1)
  obtain ⟨rfl, rfl⟩ := addXorRot_inj (by decide) rfl (Prod.ext ha1 hd1)
  rfl

/-- There are finitely many quadruples of words. -/
theorem Quad.finite : Finite Quad :=
  Finite.of_injective (fun q : Quad => (q.a, q.b, q.c, q.d)) fun ⟨_, _, _, _⟩ ⟨_, _, _, _⟩ h => by simpa using h

/-- Settles O38: an injection of a finite type into itself is a bijection; the two vectors are evaluated. -/
theorem quarterRoundBijective : Obligations.QuarterRoundBijective :=
  have := Quad.finite
  ⟨Finite.injective_iff_bijective.mp quarterRound_injective, by decide, by decide⟩

/-! Quarter-rounds on disjoint registers. -/

/-- What a quarter-round leaves in one of its own registers depends on its four registers alone (R72). -/
theorem getElem_quarterRoundAt_congr {w w' : Words 16} {a b c d i : WIndex} (hi : i ∈ [a, b, c, d])
    (h : ∀ j ∈ [a, b, c, d], w[j] = w'[j]) : (quarterRoundAt w a b c d)[i] = (quarterRoundAt w' a b c d)[i] := by
  simp only [List.mem_cons, List.not_mem_nil, or_false, forall_eq_or_imp, forall_eq] at hi h
  obtain ⟨ha, hb, hc, hd⟩ := h
  rcases hi with rfl | rfl | rfl | rfl <;> simp [getElem_quarterRoundAt, ha, hb, hc, hd]

/-- A quarter-round keeps every register that is not one of its own (R72). -/
theorem getElem_quarterRoundAt_of_not_mem (w : Words 16) {a b c d i : WIndex} (hi : i ∉ [a, b, c, d]) :
    (quarterRoundAt w a b c d)[i] = w[i] := by
  simp only [List.mem_cons, List.not_mem_nil, or_false, not_or] at hi
  obtain ⟨ha, hb, hc, hd⟩ := hi
  exact getElem_quarterRoundAt_other w ha hb hc hd

/-- On the registers of one quarter-round, another one on disjoint registers may come before or after it (R75). -/
theorem getElem_quarterRoundAt_comm (w : Words 16) {a b c d e f g h i : WIndex}
    (hdisjoint : ∀ j ∈ [a, b, c, d], j ∉ [e, f, g, h]) (hi : i ∈ [a, b, c, d]) :
    (quarterRoundAt (quarterRoundAt w a b c d) e f g h)[i] = (quarterRoundAt (quarterRoundAt w e f g h) a b c d)[i] := by
  rw [getElem_quarterRoundAt_of_not_mem _ (hdisjoint i hi)]
  exact getElem_quarterRoundAt_congr hi fun j hj => (getElem_quarterRoundAt_of_not_mem w (hdisjoint j hj)).symm

/-- Settles O39: by cases on whether a register belongs to the first quarter-round, to the second, or to neither. -/
theorem lanesIndependent : Obligations.LanesIndependent := by
  refine ⟨fun w a b c d e f g h hnodup => ?_, by decide, by decide⟩
  obtain ⟨-, -, hdisjoint⟩ := List.nodup_append'.mp (show ([a, b, c, d] ++ [e, f, g, h]).Nodup from hnodup)
  refine Vector.ext fun n hn => ?_
  by_cases hfirst : (⟨n, hn⟩ : WIndex) ∈ [a, b, c, d]
  · exact getElem_quarterRoundAt_comm w hdisjoint hfirst
  · by_cases hsecond : (⟨n, hn⟩ : WIndex) ∈ [e, f, g, h]
    · exact (getElem_quarterRoundAt_comm w (fun j hj hj' => hdisjoint hj' hj) hsecond).symm
    · calc (quarterRoundAt (quarterRoundAt w a b c d) e f g h)[(⟨n, hn⟩ : WIndex)]
        _ = w[(⟨n, hn⟩ : WIndex)] := by
          rw [getElem_quarterRoundAt_of_not_mem _ hsecond, getElem_quarterRoundAt_of_not_mem _ hfirst]
        _ = (quarterRoundAt (quarterRoundAt w e f g h) a b c d)[(⟨n, hn⟩ : WIndex)] := by
          rw [getElem_quarterRoundAt_of_not_mem _ hfirst, getElem_quarterRoundAt_of_not_mem _ hsecond]

/-- Settles O36: the words of the State by their definition, key and nonce by the lemmas about `buildState`. -/
theorem stateLayout : Obligations.StateLayout := fun k n ctr ctr' =>
  ⟨rfl, rfl, rfl, rfl, getElem_buildState_key k n ctr, rfl, getElem_buildState_nonce k n ctr,
    (buildState_set_counter k n ctr ctr').symm⟩

end Sys2Proof.Machine
end

section
/-! The register window as the host sees it: the map and its inverse (R22), the accesses of an idle CORE's host (R34, R133) and of
a busy one's (R125), and the accesses that are refused (R35, U3). -/

namespace Sys2Proof.Machine

/-! The map. -/

/-- The map takes each register's offset to the register (R22). -/
theorem windowReg_offset (r : WindowReg) : windowReg r.offset = some r := by
  have haccess := windowAccess_offset r
  rw [windowAccess] at haccess
  split at haccess
  · cases haccess
  · split at haccess <;> cases haccess
    assumption

/-- Registers stand at aligned offsets inside the window (R22). -/
theorem WindowReg.offset_aligned (r : WindowReg) : r.offset % 4 = 0 ∧ r.offset < 512 := by
  cases r <;> simp [WindowReg.offset] <;> omega

/-- The map has no register at R22's reserved offsets, nor from 0x1C0 on. -/
theorem windowReg_reserved {off : Nat}
    (h : (0x020 ≤ off ∧ off < 0x040) ∨ (0x06C ≤ off ∧ off < 0x080) ∨ (0x0B0 ≤ off ∧ off < 0x0C0) ∨ 0x1C0 ≤ off) :
    windowReg off = none := by
  rw [windowReg]
  iterate 17 rw [if_neg (by omega)]

/-- The aligned offsets below 0x1C0, one by one: a register found there has that offset (R22). -/
theorem offset_of_mem_windowReg : ∀ n : Fin 112, ∀ r ∈ windowReg (4 * n.val), r.offset = 4 * n.val := by
  decide

/-- An aligned offset the map gives a register is that register's own (R22). -/
theorem offset_of_windowReg {off : Nat} {r : WindowReg} (h : windowReg off = some r) (halign : off % 4 = 0) :
    r.offset = off := by
  have hlt : off < 0x1C0 := by
    by_contra hge
    rw [windowReg_reserved (by omega)] at h
    cases h
  obtain ⟨n, rfl⟩ : ∃ n, off = 4 * n := ⟨off / 4, by omega⟩
  exact offset_of_mem_windowReg ⟨n, by omega⟩ r h

/-- Settles O13: R22's table is the map at each register's offset. -/
theorem windowMap : Obligations.WindowMap := by
  refine ⟨⟨rfl, rfl, rfl, rfl, rfl, rfl, rfl, rfl, rfl, fun j => ?eight, fun j => ?three, fun i => ?sixteen⟩,
    fun r => ⟨windowReg_offset r, r.offset_aligned⟩, fun off r => offset_of_windowReg⟩
  case eight => exact ⟨windowReg_offset (.keyBuf j), windowReg_offset (.k j)⟩
  case three => exact ⟨windowReg_offset (.nonceBuf j), windowReg_offset (.n j)⟩
  case sixteen =>
    exact ⟨windowReg_offset (.s i), windowReg_offset (.w i), windowReg_offset (.b i), windowReg_offset (.ks i)⟩

/-! STATUS. -/

/-- The layout of STATUS over the naturals: its fields do not overlap (R13). -/
theorem statusWord_toNat : ∀ (busy valid : Bool) (result : BitVec 4),
    (statusWord busy valid result).toNat = busy.toNat + 2 * valid.toNat + 16 * result.toNat := by
  decide

/-- STATUS shows BUSY in bit 0 and 0 in every reserved bit (R13). -/
theorem statusWord_busy_reserved : ∀ (busy valid : Bool) (result : BitVec 4),
    (statusWord busy valid result).getLsbD 0 = busy ∧ statusWord busy valid result &&& 0xFFFFFF0C = 0 := by
  decide

/-- A STATUS read while `BUSY = 1` is answered, and draws one free value (R125). -/
theorem State.hostRead_busy_status {s : State} {off : Nat} (hb : s.busy = true) (h : windowAccess off .word = .ok .status) :
    s.hostRead off .word = .next (s.answer (.word s.statusRead) 1) := by
  simp [State.hostRead, h, hb, State.readReg]

/-- Settles O8: every write, and every read but STATUS's, meets the hazard check; STATUS is laid out by `statusWord`. -/
theorem busyRegisterAccess : Obligations.BusyRegisterAccess := by
  intro s off reg v rest hbusy haccess
  have hbusy' : (s.takeInput rest).busy = true := by simpa using hbusy
  refine ⟨fun hinputs => ?write, fun hinputs hreg => ?read, fun hinputs hreg => ?status⟩
  case write => rw [step_host hinputs, State.interact, State.hostWrite_busy hbusy' haccess]
  case read => rw [step_host hinputs, State.interact, State.hostRead_busy hbusy' haccess hreg]
  case status =>
    subst hreg
    refine ⟨(s.takeInput rest).statusRead, ?_, ?_⟩
    · rw [step_host hinputs, State.interact, State.hostRead_busy_status hbusy' haccess]
      rfl
    · rw [State.statusRead, if_pos hbusy']
      exact statusWord_busy_reserved _ _ _

/-! Reads and writes of an idle CORE's host. -/

/-- No register shows the host's list or the last reply. -/
theorem State.readReg_host (s : State) (inputs : List Input) (reply : Option Reply) (r : WindowReg) :
    ({ s with inputs := inputs, reply := reply } : State).readReg r = s.readReg r := by
  cases r <;> rfl

/-- A read of an idle CORE's register replies with its value and changes nothing else (R34, R133). -/
theorem step_read {s : State} {rest : List Input} {r : WindowReg} {v : Word} (hidle : s.cmd = none)
    (hinputs : s.inputs = .read r.offset .word :: rest) (hv : s.readReg r = some v) :
    step s = .next { s with inputs := rest, reply := some (.word v) } := by
  have hidle' : (s.takeInput rest).cmd = none := hidle
  have hv' : (s.takeInput rest).readReg r = some v := (s.readReg_host rest none r).trans hv
  rw [step_host hinputs, State.interact, State.hostRead_idle hidle' (windowAccess_offset r) hv']
  rfl

/-- A write of a register does not look at the host's list or the last reply. -/
theorem State.writeReg_host (s : State) (inputs : List Input) (reply : Option Reply) (v : Word) (r : WindowReg) :
    ({ s with inputs := inputs, reply := reply } : State).writeReg v r =
      (s.writeReg v r).map fun t => { t with inputs := inputs, reply := reply } := by
  cases r <;> rfl

/-- A write of an idle CORE's register that the host may write takes place, and clears the last reply (R34, R133). -/
theorem step_write {s t : State} {rest : List Input} {r : WindowReg} {v : Word} (hidle : s.cmd = none)
    (hinputs : s.inputs = .write r.offset .word v :: rest) (hw : s.writeReg v r = some t) :
    step s = .next { t with inputs := rest, reply := none } := by
  have hidle' : (s.takeInput rest).cmd = none := hidle
  have hw' : (s.takeInput rest).writeReg v r = some { t with inputs := rest, reply := none } :=
    (s.writeReg_host rest none v r).trans (by rw [hw]; rfl)
  rw [step_host hinputs, State.interact, State.hostWrite_idle hidle' (windowAccess_offset r) hw']

/-- Settles O9: an idle CORE's STATUS is laid out by `statusWord` with BUSY 0. -/
theorem idleStatusRead : Obligations.IdleStatusRead := by
  intro s rest hidle hinputs
  have hbusy : s.busy = false := by simp [State.busy, hidle]
  refine ⟨s.statusRead, step_read (r := .status) hidle hinputs rfl, ?_⟩
  rw [State.statusRead, hbusy, if_neg (by decide), State.status, statusWord_toNat, hbusy]
  simp

/-- Word `i` of a byte file after its word `j` is written (R34). -/
theorem wordOf_putWord {m n : Nat} (x : Bytes m) (v : Word) (i j : Fin n) (h : 4 * i.val + 3 < m) :
    wordOf (putWord x j.val v) i.val h = if i = j then v else wordOf x i.val h := by
  split
  case isTrue heq =>
    subst heq
    exact wordOf_putWord_same x _ h v
  case isFalse hne => exact wordOf_putWord_other x h (fun heq => hne (Fin.ext heq)) v

/-- Word `i` of a word file after its word `j` is written. -/
theorem getElem_set_word {n : Nat} (x : Words n) (v : Word) (i j : Fin n) :
    (x.set j.val v)[i.val] = if i = j then v else x[i.val] := by
  rw [Vector.getElem_set]
  simp only [Fin.ext_iff, eq_comm]

/-- What STATUS reads as depends on BUSY, VALID, RESULT and the count of free values alone (R13, R125). -/
theorem State.statusRead_congr {s t : State} (hcmd : t.cmd = s.cmd) (hvalid : t.valid = s.valid) (hresult : t.result = s.result)
    (hdraws : t.draws = s.draws) : t.statusRead = s.statusRead := by
  simp [State.statusRead, State.status, State.busy, hcmd, hvalid, hresult, hdraws]

/-- After a write of a register other than CMD that register reads as the word written, and every other one as before (R34). -/
theorem State.readReg_writeReg {s t : State} {v : Word} {r : WindowReg} (hr : r ≠ .cmd) (h : s.writeReg v r = some t)
    (r' : WindowReg) : t.readReg r' = if r' = r then some v else s.readReg r' := by
  have hstatus : ∀ u : State, u.cmd = s.cmd → u.valid = s.valid → u.result = s.result → u.draws = s.draws →
      u.statusRead = s.statusRead := fun _ => State.statusRead_congr
  cases r with
  | cmd => exact absurd rfl hr
  | keyBuf j | nonceBuf j | ks j =>
    cases h
    cases r' <;> simp [State.readReg, hstatus, wordOf_putWord, apply_ite some]
  | s i | w i | b i =>
    cases h
    cases r' <;> simp [State.readReg, hstatus, getElem_set_word, apply_ite some]
  | keyLen | nonceLen | ctrArg | lenLo | lenHi =>
    cases h
    cases r' <;> simp [State.readReg, hstatus]
  | _ => cases h

/-- A write of a register other than CMD starts no command, and no write of a register touches a message space. -/
theorem State.writeReg_keeps {s t : State} {v : Word} {r : WindowReg} (hr : r ≠ .cmd) (h : s.writeReg v r = some t) :
    t.cmd = s.cmd ∧ t.inMem = s.inMem ∧ t.outMem = s.outMem := by
  cases r with
  | cmd => exact absurd rfl hr
  | _ => cases h <;> exact ⟨rfl, rfl, rfl⟩

/-- Settles O14: a read by `step_read`; after `step_write` a read of the same register by `step_read` and
`State.readReg_writeReg`. -/
theorem windowReadBack : Obligations.WindowReadBack := by
  refine ⟨fun s rest hidle => ?reads, fun s r v rest hidle hr hsome hinputs => ?readBack⟩
  case reads =>
    have read : ∀ (r : WindowReg) (v : Word), s.readReg r = some v →
        step { s with inputs := .read r.offset .word :: rest } = .next { s with inputs := rest, reply := some (.word v) } :=
      fun r v hv => step_read (r := r) hidle rfl ((s.readReg_host _ s.reply r).trans hv)
    refine ⟨read .faultLog _ rfl, read .keyLen _ rfl, read .nonceLen _ rfl, read .ctrArg _ rfl, read .lenLo _ rfl,
      read .lenHi _ rfl, read .ctr0 _ rfl, fun j => ⟨read (.k j) _ rfl, read (.keyBuf j) _ rfl⟩,
      fun j => ⟨read (.n j) _ rfl, read (.nonceBuf j) _ rfl⟩, fun i => ⟨?_, ?_, ?_, ?_⟩⟩
    · exact read (.s i) _ rfl
    · exact read (.w i) _ rfl
    · exact read (.b i) _ rfl
    · exact read (.ks i) _ rfl
  case readBack =>
    obtain ⟨t, hw⟩ := Option.isSome_iff_exists.mp hsome
    obtain ⟨hcmd, hin, hout⟩ := State.writeReg_keeps hr hw
    have hread := State.readReg_writeReg hr hw
    refine ⟨_, _, step_write hidle hinputs hw, step_read (hcmd.trans hidle) rfl ?_, rfl, rfl, fun r' hne => ?_, ?_, ?_⟩
    · rw [State.readReg_host, hread, if_pos rfl]
    · exact (t.readReg_host _ _ r').trans ((hread r').trans (if_neg hne))
    · exact fun a => congrArg (Memory.read · a) hin
    · exact fun a => congrArg (Memory.read · a) hout

/-- Byte `i` of a byte file after its word `j` is written, over the naturals (R34). -/
theorem toNat_getElem_putWord {m : Nat} (x : Bytes m) (j : Nat) (v : Word) (i : Fin m) :
    (putWord x j v)[i].toNat = if i.val / 4 = j then v.toNat / 2 ^ (8 * (i.val % 4)) % 2 ^ 8 else x[i].toNat := by
  rw [getElem_putWord, apply_ite BitVec.toNat, byteLE_toNat]
  rfl

/-- Settles O15: each write by `step_write`, the lanes by `toNat_getElem_putWord`. -/
theorem windowWrites : Obligations.WindowWrites := by
  intro s v rest hidle
  have write : ∀ (r : WindowReg) (t : State), s.writeReg v r = some t →
      step { s with inputs := .write r.offset .word v :: rest } = .next { t with inputs := rest, reply := none } := by
    intro r t hw
    have hw' := s.writeReg_host (.write r.offset .word v :: rest) s.reply v r
    rw [hw, Option.map_some] at hw'
    exact (step_write (s := { s with inputs := .write r.offset .word v :: rest }) hidle rfl hw').trans rfl
  refine ⟨write .keyLen _ rfl, write .nonceLen _ rfl, write .ctrArg _ rfl, write .lenLo _ rfl, write .lenHi _ rfl,
    fun j => ⟨_, write (.keyBuf j) _ rfl, toNat_getElem_putWord _ _ v⟩,
    fun j => ⟨_, write (.nonceBuf j) _ rfl, toNat_getElem_putWord _ _ v⟩,
    fun j => ⟨write (.s j) _ rfl, write (.w j) _ rfl, write (.b j) _ rfl,
      _, write (.ks j) _ rfl, toNat_getElem_putWord _ _ v⟩⟩

/-- Settles O11: each of the three accesses is a `State.hostMessage` of an idle CORE; what reads back is `Memory.read_write`. -/
theorem messageAccessAllowed : Obligations.MessageAccessAllowed := by
  intro s addr v rest hidle hin hout
  have taken : ∀ t, (s.takeInput rest).hostMessage addr t = .next t := State.hostMessage_idle hidle addr
  refine ⟨fun hinputs => ?writeIn, fun hinputs => ?writeOut, fun hinputs => ?readOut⟩
  case writeIn =>
    refine ⟨s.inMem.write addr.toNat v, ?_, fun a => Memory.read_write hin _ a v⟩
    rw [step_host hinputs, State.interact, taken]
    rfl
  case writeOut =>
    refine ⟨s.outMem.write addr.toNat v, ?_, fun a => Memory.read_write hout _ a v⟩
    rw [step_host hinputs, State.interact, taken]
    rfl
  case readOut =>
    rw [step_host hinputs, State.interact, taken]
    rfl

/-! Refused accesses. -/

/-- A window access the map does not allow is refused under the map's reason, write or read (U3). -/
theorem step_window_error {s : State} {off : Nat} {size : AccessSize} {v : Word} {rest : List Input} {reason : Refusal}
    (hinputs : s.inputs = .write off size v :: rest ∨ s.inputs = .read off size :: rest)
    (h : windowAccess off size = .error reason) : step s = .refused reason := by
  rcases hinputs with hinputs | hinputs <;> rw [step_host hinputs, State.interact]
  · exact State.hostWrite_error h _ v
  · exact State.hostRead_error h _

theorem windowAccess_notAligned {off : Nat} {size : AccessSize} (h : size ≠ .word ∨ off % 4 ≠ 0) :
    windowAccess off size = .error (.notAlignedWord off) := by
  rw [windowAccess, if_pos h]

theorem windowAccess_reserved {off : Nat} (halign : off % 4 = 0) (h : windowReg off = none) :
    windowAccess off .word = .error (.reservedOffset off) := by
  rw [windowAccess, if_neg (by simp [halign]), h]

/-- The aligned offsets of R22's read-only registers: STATUS, FAULTLOG and the context. -/
theorem exists_readOnly_offset {off : Nat} (halign : off % 4 = 0)
    (h : off = 0x004 ∨ off = 0x008 ∨ (0x080 ≤ off ∧ off < 0x0B0)) :
    ∃ r : WindowReg, r.offset = off ∧ ∀ (s : State) (v : Word), s.writeReg v r = none := by
  rcases h with rfl | rfl | ⟨hlo, hhi⟩
  · exact ⟨.status, rfl, fun _ _ => rfl⟩
  · exact ⟨.faultLog, rfl, fun _ _ => rfl⟩
  · rcases Nat.lt_or_ge off 0x0A0 with hk | hk
    · exact ⟨.k ⟨(off - 0x080) / 4, by omega⟩, by simp only [WindowReg.offset]; omega, fun _ _ => rfl⟩
    · rcases Nat.lt_or_ge off 0x0AC with hn | hn
      · exact ⟨.n ⟨(off - 0x0A0) / 4, by omega⟩, by simp only [WindowReg.offset]; omega, fun _ _ => rfl⟩
      · exact ⟨.ctr0, by simp only [WindowReg.offset]; omega, fun _ _ => rfl⟩

/-- CMD is write-only (R15). -/
theorem step_read_cmd {s : State} {rest : List Input} (hidle : s.cmd = none) (hinputs : s.inputs = .read 0x000 .word :: rest) :
    step s = .refused .readOfWriteOnly := by
  have hidle' : (s.takeInput rest).cmd = none := hidle
  rw [step_host hinputs, State.interact]
  exact State.hostRead_writeOnly hidle' (windowAccess_offset .cmd) rfl

/-- Settles O12: the map's own refusals by `step_window_error`, the others by the access rights of the register at the offset. -/
theorem windowRefusals : Obligations.WindowRefusals := by
  intro s off size v rest hinputs
  refine ⟨fun h => ?notAligned, fun hsize halign h => ?reserved, fun hsize halign hidle hwrite h => ?readOnly,
    fun hsize hoff hidle hread => ?writeOnly⟩
  case notAligned => exact step_window_error hinputs (windowAccess_notAligned h)
  case reserved =>
    subst hsize
    exact step_window_error hinputs (windowAccess_reserved halign (windowReg_reserved h))
  case readOnly =>
    subst hsize
    obtain ⟨r, rfl, hnone⟩ := exists_readOnly_offset halign h
    have hidle' : (s.takeInput rest).cmd = none := hidle
    refine ⟨r, rfl, ?_⟩
    rw [step_host hwrite, State.interact, State.hostWrite_readOnly hidle' (windowAccess_offset r) (hnone _ v)]
  case writeOnly =>
    subst hsize hoff
    exact step_read_cmd hidle hread

/-! Starting and running a command, and the platform's reset. -/

/-- Settles O6: with no interaction pending, and on `wait`, a step is the CORE's. -/
theorem stepExecutesDecodedCommand : Obligations.StepExecutesDecodedCommand := by
  intro s cw i hcmd hdecode
  have hcmd' : ∀ rest, (s.takeInput rest).cmd = some cw := fun _ => hcmd
  refine ⟨fun hinputs => (step_core hinputs).trans (State.runCommand_legal hcmd hdecode), fun rest hinputs => ?_⟩
  rw [step_host hinputs, State.interact, State.runCommand_legal (hcmd' rest) hdecode, State.takeInput]

/-- Settles O7: a write of CMD is a write of a register an idle CORE's host may write, and not read. -/
theorem commandWriteStarts : Obligations.CommandWriteStarts := by
  intro s cw rest
  refine ⟨fun hidle hinputs => ?start, fun hidle hinputs => ?read, fun hbusy hinputs => ?busy⟩
  case start =>
    refine ⟨_, step_write (r := .cmd) hidle hinputs rfl, rfl, rfl, fun i hdecode hrest => ?_⟩
    exact (step_core hrest).trans (State.runCommand_legal rfl hdecode)
  case read => exact step_read_cmd hidle hinputs
  case busy =>
    have hbusy' : (s.takeInput rest).busy = true := hbusy
    rw [step_host hinputs, State.interact]
    exact State.hostWrite_busy hbusy' (windowAccess_offset .cmd) cw

/-- Settles O19: with no interaction pending the step is the CORE's, and an idle CORE does nothing. -/
theorem idleDoesNothing : Obligations.IdleDoesNothing := fun _ hidle hinputs =>
  (step_core hinputs).trans (State.runCommand_idle hidle)

/-- Settles O17: the registers by `State.hostReset_registers`; OUT is mixed only where a command that writes it is abandoned. -/
theorem resetInput : Obligations.ResetInput := by
  intro s rest hinputs
  refine ⟨_, step_reset hinputs, fun a => ?_, fun husing a => ?_, State.hostReset_registers _⟩
  · simp
  · have husing' : (s.takeInput rest).usingMessages = false := husing
    simp [State.outAfterReset_of_not_usingMessages husing']

end Sys2Proof.Machine
end

section
/-! The Serializer's inverse (R82), the Combiner's (R85), and the laws of CIPHER's output that follow from R90 (R94). -/

namespace Sys2Proof.Machine

/-! Serialize and PACK_LE. -/

/-- The bytes of a packed word are the four it was packed from (R60, R80). -/
theorem byteLE_packLE (b0 b1 b2 b3 : Byte) :
    byteLE (packLE b0 b1 b2 b3) 0 = b0 ∧ byteLE (packLE b0 b1 b2 b3) 1 = b1 ∧ byteLE (packLE b0 b1 b2 b3) 2 = b2 ∧
      byteLE (packLE b0 b1 b2 b3) 3 = b3 := by
  simp only [← BitVec.toNat_inj, byteLE_toNat, packLE_toNat]
  omega

/-- Word `j` of a serialised block is the block's word (R82). -/
theorem wordOf_serialize (b : Words 16) (j : Fin 16) : wordOf (serialize b) j.val (by omega) = b[j] := by
  rw [← packLE_byteLE b[j], ← Fin.val_zero 4]
  exact congr (congr (congr (congrArg packLE (getElem_serialize b j 0)) (getElem_serialize b j 1)) (getElem_serialize b j 2))
    (getElem_serialize b j 3)

/-- Byte `k` of word `j` of a byte file is the file's byte `4j + k` (R60, R80). -/
theorem byteLE_wordOf {m : Nat} (x : Bytes m) {j : Nat} (h : 4 * j + 3 < m) (k : Fin 4) :
    byteLE (wordOf x j h) k.val = x[4 * j + k.val] := by
  obtain ⟨h0, h1, h2, h3⟩ := byteLE_packLE x[4 * j] x[4 * j + 1] x[4 * j + 2] x[4 * j + 3]
  fin_cases k
  · exact h0
  · exact h1
  · exact h2
  · exact h3

/-- Packing 64 bytes and serialising the words gives the bytes back (R82). -/
theorem serialize_wordOf (ks : Bytes 64) : serialize (Vector.ofFn fun j : Fin 16 => wordOf ks j.val (by omega)) = ks := by
  refine Vector.ext fun i hi => ?_
  rw [serialize, Vector.getElem_ofFn, Vector.getElem_ofFn, byteLE_wordOf ks _ ⟨i % 4, Nat.mod_lt i (by decide)⟩]
  simp only [Nat.div_add_mod]

/-- Settles O40: the two inverses, and the window's view of KS after SERIALIZE. -/
theorem serializePackInverse : Obligations.SerializePackInverse := by
  refine ⟨wordOf_serialize, serialize_wordOf, fun s j => ⟨_, exec_serialize s, windowReg_offset (.ks j), ?_⟩⟩
  exact congrArg some (wordOf_serialize s.b j)

/-! COMBINE undoes itself. -/

/-- Settles O42: the second xor with the same keystream byte cancels the first; from LEN on neither COMBINE writes. -/
theorem combineSelfInverse : Obligations.CombineSelfInverse := by
  intro s m hlen hw
  obtain ⟨t, ht, -⟩ := everyCommandEnds .combine s
  obtain ⟨-, -, -, -, -, hks⟩ := exec_combine_frame ht
  have hlen' : t.len = s.len := exec_len ht
  have hw' : t.outMem.wf = true := exec_outMem_wf ht hw
  refine ⟨t, ht, fun hcopy => ?_⟩
  obtain ⟨u, hu, -⟩ := everyCommandEnds .combine { t with inMem := m }
  refine ⟨u, hu, fun p hp => ?below, fun p hp => ?above⟩
  case below =>
    have hp64 : p < 64 := by omega
    calc u.outMem.read p
      _ = m.read p ^^^ t.ks[p] := exec_combine_read_of_lt hu hw' (hlen'.trans_le hlen) hp64 (hp.trans_eq hlen'.symm)
      _ = s.inMem.read p ^^^ s.ks[p] ^^^ s.ks[p] := by
        rw [hcopy p hp, exec_combine_read_of_lt ht hw hlen hp64 hp, hks]
      _ = s.inMem.read p := by rw [BitVec.xor_assoc, BitVec.xor_self, BitVec.xor_zero]
  case above =>
    calc u.outMem.read p
      _ = t.outMem.read p := exec_combine_keeps_from_len hu hw' (hlen'.trans_le hp)
      _ = s.outMem.read p := exec_combine_keeps_from_len ht hw hp

/-! CIPHER's output. -/

/-- CIPHER is accepted under a context whose counters suffice for the text (R88, R89). -/
theorem State.cipherError_eq_none {s : State} (hvalid : s.valid = true) (hroom : s.ctr0.toNat + (s.len + 63) / 64 ≤ 2 ^ 32) :
    s.cipherError = none :=
  State.cipherError_eq_none_iff.mpr ⟨hvalid, not_counterOverflows_iff.mpr (by rw [ceil64]; omega)⟩

/-- An accepted CIPHER writes text xor keystream below LEN (R90). -/
theorem exec_cipher_accepted {s : State} (hvalid : s.valid = true) (hroom : s.ctr0.toNat + (s.len + 63) / 64 ≤ 2 ^ 32)
    (hw : s.outMem.wf = true) :
    ∃ t, exec .cipher s = .next t ∧ Succeeded s t ∧
      ∀ p, p < s.len → t.outMem.read p = s.inMem.read p ^^^ keystreamAt s.k s.n s.ctr0 p := by
  have hacc := State.cipherError_eq_none hvalid hroom
  obtain ⟨t, ht, -⟩ := everyCommandEnds .cipher s
  exact ⟨t, ht, exec_succeeded ht (exec_cipher_result ht hacc),
    fun p hp => (exec_cipher_read ht hacc hw p).trans (if_pos hp)⟩

/-- A counter that does not pass 0xFFFFFFFF does not wrap (R87). -/
theorem toNat_counter {c : Word} {i : Nat} (h : c.toNat + i < 2 ^ 32) : (c + BitVec.ofNat 32 i).toNat = c.toNat + i := by
  rw [BitVec.toNat_add, BitVec.toNat_ofNat]
  omega

/-- Settles O31: the bytes below LEN by R90, each under a counter that does not wrap; the rest by the frame of CIPHER. -/
theorem cipherCommand : Obligations.CipherCommand := by
  refine ⟨by decide, fun s hvalid hroom hw => ?_⟩
  obtain ⟨t, ht, hsucc, hread⟩ := exec_cipher_accepted hvalid hroom hw
  refine ⟨t, ht, hsucc, fun p hp => ⟨toNat_counter (by omega), ?_⟩, fun a => exec_cipher_read_of_ge ht hw,
    exec_sameContext (by decide) ht, exec_sameSurroundings ht⟩
  rw [hread p hp, keystreamAt, keystreamByte_of_lt _ (by omega)]

/-- Settles O44: below the shorter LEN both texts meet the same keystream. -/
theorem cipherPrefix : Obligations.CipherPrefix := by
  intro s1 s2 hvalid hctx htext hlen hroom hw1 hw2
  obtain ⟨hk, hn, hctr, hvalid'⟩ := hctx
  obtain ⟨t1, ht1, -, hread1⟩ := exec_cipher_accepted hvalid (by rw [← hctr]; omega) hw1
  obtain ⟨t2, ht2, -, hread2⟩ := exec_cipher_accepted (hvalid'.trans hvalid) hroom hw2
  refine ⟨t1, t2, ht1, ht2, fun p hp => ?_⟩
  rw [hread1 p hp, hread2 p (by omega), htext p, hk, hn, hctr]

/-- The keystream from offset `64 m` on is the one whose base counter is `m` higher (R94). -/
theorem keystreamAt_restart (k : Words 8) (n : Words 3) (ctr0 : Word) (m p : Nat) :
    keystreamAt k n (ctr0 + BitVec.ofNat 32 m) p = keystreamAt k n ctr0 (64 * m + p) := by
  have hblock : (64 * m + p) / 64 = m + p / 64 := by omega
  have hbyte : (64 * m + p) % 64 = p % 64 := by omega
  rw [keystreamAt, keystreamAt, hblock, hbyte, BitVec.ofNat_add, BitVec.add_assoc]

/-- Settles O45: both runs are accepted, and `keystreamAt_restart` gives them the same keystream. -/
theorem cipherRestart : Obligations.CipherRestart := by
  intro s1 s2 m hvalid1 hvalid2 hk hn hctr hlen htext hroom hw1 hw2
  have hbase : s2.ctr0 = s1.ctr0 + BitVec.ofNat 32 m := by
    have := s2.ctr0.isLt
    exact BitVec.eq_of_toNat_eq (hctr.trans (toNat_counter (by omega)).symm)
  obtain ⟨t1, ht1, -, hread1⟩ := exec_cipher_accepted hvalid1 hroom hw1
  obtain ⟨t2, ht2, -, hread2⟩ := exec_cipher_accepted hvalid2 (by omega) hw2
  refine ⟨t1, t2, ht1, ht2, fun p hp => ?_⟩
  rw [hread1 _ (by omega), hread2 p hp, htext p hp, hk, hn, hbase, keystreamAt_restart]

/-! LEN is no scratch register. -/

@[simp] theorem State.setS_len (s : State) (v : Words 16) : (s.setS v).len = s.len := (rfl)
@[simp] theorem State.setW_len (s : State) (v : Words 16) : (s.setW v).len = s.len := (rfl)
@[simp] theorem State.setB_len (s : State) (v : Words 16) : (s.setB v).len = s.len := (rfl)
@[simp] theorem State.setKs_len (s : State) (v : Bytes 64) : (s.setKs v).len = s.len := (rfl)
@[simp] theorem State.setBlk_len (s : State) (v : Word) : (s.setBlk v).len = s.len := (rfl)
@[simp] theorem State.setRnd_len (s : State) (v : BitVec 4) : (s.setRnd v).len = s.len := (rfl)
@[simp] theorem State.finish_len (s : State) (c : BitVec 4) : (s.finish c).len = s.len := (rfl)

/-- Settles O47: the one block of CIPHER patches word 12 to the counter it holds, and then does what the four commands do. -/
theorem oneBlockCipherByHand : Obligations.OneBlockCipherByHand := by
  intro s hvalid hctr hpos hlen
  have hover : counterOverflows s.ctr0 s.len = false := not_counterOverflows_iff_len.mpr (by have := s.ctr0.isLt; omega)
  have hone : ceil64 s.len = 1 := by rw [ceil64]; omega
  have hchunk : chunkLen s.len 0 = s.len := by rw [chunkLen]; omega
  refine ⟨_, exec_cipher_ok hvalid hover, ?_⟩
  rw [execAll_cons (exec_initstate_ok hvalid), execAll_cons (exec_block_eq _), execAll_cons (exec_serialize _),
    execAll_cons (exec_combine_ok ?short), execAll, hone]
  case short => simpa using hlen
  refine congrArg _ ?_
  rw [State.cipherBlocks, State.cipherBlocks, State.cipherBlock_eq]
  ext1 <;> simp [hctr, hchunk, State.startCipher]

end Sys2Proof.Machine
end

section
/-! Commands run from the reset state (R122), and the host's sequence KEYSTREAM run step by step (R53). -/

namespace Sys2Proof.Machine

/-! The reset state. -/

/-- Sixteen zero words, the reset value of W, S and B (R26). -/
def zeroWords : Words 16 := Vector.replicate 16 0

theorem getElem_zeroWords (i : WIndex) : zeroWords[i] = 0 := Vector.getElem_replicate i.isLt

/-- The quarter-round fixes the zero words (R66). -/
theorem quarterRoundAt_zeroWords (a b c d : WIndex) : quarterRoundAt zeroWords a b c d = zeroWords := by
  obtain ⟨-, hzero, -⟩ := quarterRoundBijective
  refine Vector.ext fun i hi => ?_
  rw [getElem_quarterRoundAt zeroWords a b c d ⟨i, hi⟩]
  simp only [getElem_zeroWords, hzero, ite_self]
  exact (getElem_zeroWords ⟨i, hi⟩).symm

theorem doubleRoundsOf_zeroWords (n : Nat) : doubleRoundsOf n zeroWords = zeroWords := by
  induction n with
  | zero => rfl
  | succ n ih => simp only [doubleRoundsOf, ih, doubleRoundOf, columnRound, diagonalRound, quarterRoundAt_zeroWords]

theorem addWords_zeroWords : addWords zeroWords zeroWords = zeroWords := by decide

theorem serialize_zeroWords : serialize zeroWords = State.reset.ks := by decide

/-- Settles O20: the three errors by their equations; the others write to each register the zero it holds. -/
theorem commandsOnResetState : Obligations.CommandsOnResetState := by
  refine ⟨⟨_, exec_initstate_noContext rfl, State.raise_failed _ _⟩, ⟨_, exec_cipher_noContext rfl, State.raise_failed _ _⟩,
    ⟨_, exec_construct_badKey (by decide), State.invalidate_raise_failed _ _⟩, exec_copy _, ?block, ?addstate, ?serialize,
    exec_combine_ok (by decide), fun a b c d h => ?qround⟩
  case block =>
    have hw : workingOf State.reset.s = zeroWords := doubleRoundsOf_zeroWords _
    have hb : blockOf State.reset.s = zeroWords := by rw [blockOf, hw]; exact addWords_zeroWords
    rw [exec_block_eq, hw, hb]
    rfl
  case addstate =>
    have hb : addWords State.reset.w State.reset.s = zeroWords := addWords_zeroWords
    rw [exec_addstate, hb]
    rfl
  case serialize =>
    have hks : serialize State.reset.b = State.reset.ks := serialize_zeroWords
    rw [exec_serialize, hks]
    rfl
  case qround =>
    have hw : quarterRoundAt State.reset.w a b c d = zeroWords := quarterRoundAt_zeroWords a b c d
    rw [exec_qround_ok h, hw]
    rfl

/-! The host's commands. -/

/-- A step with a next state is the first step of a run. -/
theorem run_succ {s t : State} (h : step s = .next t) (k : Nat) : core.run (k + 1) s = core.run k t := by
  have hcore : core.step s = .next t := h
  simp only [Host.Core.run, hcore]

/-- `s` with command `i` being executed and the interactions `rest` to come. -/
def State.started (s : State) (i : Instr) (rest : List Input) : State :=
  { s with inputs := rest, reply := none, cmd := some (encode i) }

/-- A CMD write and a wait are two steps of the machine, and execute one command (R52). -/
theorem run_command {s : State} {i : Instr} {rest : List Input} (hidle : s.cmd = none)
    (hinputs : s.inputs = .write 0x000 .word (encode i) :: .wait :: rest) (hwf : i.WellFormed) :
    ∃ t, exec i (s.started i rest) = .next t ∧ t.cmd = none ∧ t.inputs = rest ∧
      ∀ k, core.run (k + 2) s = core.run k t := by
  obtain ⟨t, ht, hcmd, -, -⟩ := everyCommandEnds i (s.started i rest)
  obtain ⟨-, -, hrest, -, -⟩ := exec_sameSurroundings ht
  have hstart := step_write (r := .cmd) hidle hinputs rfl
  obtain ⟨-, hwait⟩ := stepExecutesDecodedCommand (s.started i (.wait :: rest)) (encode i) i rfl (decodeOfEncode i hwf)
  exact ⟨t, ht, hcmd, hrest, fun k => (run_succ hstart (k + 1)).trans (run_succ ((hwait rest rfl).trans ht) k)⟩

/-- What each of the three commands of KEYSTREAM leaves in the register it writes (R63, R74, R81). -/
theorem exec_initstate_s {s t : State} (h : exec .initstate s = .next t) (hvalid : s.valid = true) :
    t.s = buildState s.k s.n s.ctrArg := by
  rw [exec_next_unique h (exec_initstate_ok hvalid), State.finish_s, State.setS_s]

theorem exec_block_b {s t : State} (h : exec .block s = .next t) : t.b = blockOf s.s := by
  rw [exec_next_unique h (exec_block_eq s), State.finish_b, State.setRnd_b, State.setB_b]

theorem exec_serialize_ks {s t : State} (h : exec .serialize s = .next t) : t.ks = serialize s.b := by
  rw [exec_next_unique h (exec_serialize s), State.finish_ks, State.setKs_ks]

/-- No command changes CTR_ARG (R16). -/
theorem exec_ctrArg {i : Instr} {s t : State} (h : exec i s = .next t) : t.ctrArg = s.ctrArg := by
  obtain ⟨⟨-, -, -, -, hctr, -, -⟩, -, -⟩ := exec_sameSurroundings h
  exact hctr

/-- Settles O48: the write of CTR_ARG by `step_write`, then three commands by `run_command`, each with the register it writes. -/
theorem keystreamSequence : Obligations.KeystreamSequence := by
  intro s ctr hidle hvalid hinputs
  obtain ⟨s0, hrun0, hidle0, hinputs0, hctr0, hctx0⟩ : ∃ s0, (∀ k, core.run (k + 1) s = core.run k s0) ∧ s0.cmd = none ∧
      s0.inputs = commandInputs [.initstate, .block, .serialize] ∧ s0.ctrArg = ctr ∧ SameContext s s0 :=
    ⟨_, run_succ (step_write (r := .ctrArg) hidle hinputs rfl), hidle, rfl, rfl, rfl, rfl, rfl, rfl⟩
  obtain ⟨s1, hexec1, hidle1, hinputs1, hrun1⟩ := run_command hidle0 hinputs0 trivial
  obtain ⟨s2, hexec2, hidle2, hinputs2, hrun2⟩ := run_command hidle1 hinputs1 trivial
  obtain ⟨s3, hexec3, hidle3, hinputs3, hrun3⟩ := run_command hidle2 hinputs2 trivial
  have ⟨hk, hn, _, hvalid0⟩ := hctx0
  have hs : s1.s = buildState s0.k s0.n s0.ctrArg := (exec_initstate_s hexec1 (hvalid0.trans hvalid) :)
  have hb : s2.b = blockOf s1.s := (exec_block_b hexec2 :)
  have hks : s3.ks = serialize s2.b := (exec_serialize_ks hexec3 :)
  have hctx1 : SameContext s0 s1 := (exec_sameContext (by decide) hexec1 :)
  have hctx2 : SameContext s1 s2 := (exec_sameContext (by decide) hexec2 :)
  have hctx3 : SameContext s2 s3 := (exec_sameContext (by decide) hexec3 :)
  have hctrArg : s3.ctrArg = ctr := calc
    s3.ctrArg = s2.ctrArg := (exec_ctrArg hexec3 :)
    _ = s1.ctrArg := (exec_ctrArg hexec2 :)
    _ = s0.ctrArg := (exec_ctrArg hexec1 :)
    _ = ctr := hctr0
  refine ⟨s3, ?run, ?ks, hctrArg, hinputs3, hidle3, result_of_next hexec3 (exec_serialize _) rfl,
    hctx0.trans (hctx1.trans (hctx2.trans hctx3))⟩
  case run =>
    calc core.run 7 s
      _ = core.run 0 s3 := by rw [hrun0, hrun1, hrun2, hrun3]
      _ = .next s3 := rfl
  case ks => rw [hks, hb, hs, hk, hn, hctr0, keystreamOf]

end Sys2Proof.Machine
end
